-- ==== Sys2Proof/Word.lean ====
section
/-! DEFINITION. The bit-vector types of the Frame Codec (R6, R10, R12). All values are unsigned; bit 0 is
the least significant bit. -/

namespace Sys2Proof

/-- `bits8`: a checksum, a CRC field, a health byte. -/
abbrev Byte := BitVec 8

/-- R12 `Frame`: one 32-bit request/reply exchange unit. -/
abbrev Frame := BitVec 32

/-- R12 `Payload`: the low 24 bits of a frame, over which the CRC is computed. -/
abbrev Payload := BitVec 24

/-- R12 `Addr`: a 16-bit register address. -/
abbrev Addr := BitVec 16

/-- One bit of a port. -/
abbrev Bit := BitVec 1

end Sys2Proof
end

