-- ==== Sys2Proof/Types.lean ====
section
/-! DEFINITION. The data types the rules speak of: error kinds (R83), error info (R85), reply views and
outcomes (R12), the input and output ports (R16, R17). -/

namespace Sys2Proof

/-- R83: the error taxonomy, complete, in the document's order. -/
inductive ErrorKind where
  | hardwareError
  | timeoutError
  | crcError
  | wrongDeviceId
  | invalidChannel
  | invalidParameter
  | wrongMode
  | spiFrameError
  | writeToReadOnly
  | registerError
  | notInitialized
  deriving DecidableEq, Repr, Inhabited

/-- R74: the four causes a non-zero status may name. -/
inductive StatusError where
  | spiFrameError
  | crcError
  | writeToReadOnly
  | registerError
  deriving DecidableEq, Repr, Inhabited

/-- R74: the taxonomy's kind for each named status cause. -/
def StatusError.kind : StatusError → ErrorKind
  | .spiFrameError => .spiFrameError
  | .crcError => .crcError
  | .writeToReadOnly => .writeToReadOnly
  | .registerError => .registerError

/-- The `info` of an `Err` outcome (R12, R85, 90_conflicts.md C5). -/
inductive ErrInfo where
  /-- Nothing recorded (reserved reply mode, R76). -/
  | none
  /-- The health byte of a critical-fault reply (R75, R81). -/
  | health (h : Byte)
  /-- The block's own CRC comparison failed; no field of the frame is recorded (R79). -/
  | localMismatch
  /-- The status of a 16-bit reply; under the kind `CRCError` this is the cause `reported_by_chip` (R80). -/
  | status (s : BitVec 5)
  deriving DecidableEq, Repr, Inhabited

/-- R12 `Outcome`: what `CLASSIFY` returns. -/
inductive CodecOutcome where
  | ok (value : BitVec 32)
  | err (kind : ErrorKind) (info : ErrInfo)
  deriving DecidableEq, Repr, Inhabited

/-- R80: the two causes of the one kind `CRCError`. -/
inductive CrcCause where
  | localMismatch
  | reportedByChip (status : BitVec 5)
  deriving DecidableEq, Repr

/-- R80, 90_conflicts.md C5: the cause of a `CRCError`, read from its info. -/
def CodecOutcome.crcCause : CodecOutcome → Option CrcCause
  | .err .crcError .localMismatch => some .localMismatch
  | .err .crcError (.status s) => some (.reportedByChip s)
  | _ => Option.none

/-- R40: the four values of the reply-mode field. -/
inductive ReplyMode where
  | reply16
  | reply22
  | critical
  | reserved
  deriving DecidableEq, Repr

/-- R12 `ReplyView`: a field exists only in its own case (R72). -/
inductive ReplyView where
  | reply16 (status : BitVec 5) (statusKind : Option ErrorKind) (rwEcho : Bit) (data : BitVec 16) (crc : Byte)
  | reply22 (wide : BitVec 22) (crc : Byte)
  | critical (health : Byte)
  | reserved
  deriving DecidableEq, Repr

/-- R16: the input ports. -/
structure InPorts where
  op : BitVec 3
  address : Addr
  value : BitVec 16
  payload : Payload
  frameIn : Frame
  verify : Bit
  deriving DecidableEq, Repr

/-- R17: the output ports, and `outInfo`, the info of an `Err` outcome, for which R17 has no port (log 8). -/
structure OutPorts where
  frameOut : Frame
  crcOut : Byte
  crcOk : Bit
  viewKind : BitVec 2
  viewStatus : BitVec 5
  viewStatusKind : BitVec 4
  viewRwEcho : Bit
  viewData : BitVec 22
  viewCrc : Byte
  viewHealth : Byte
  outOk : Bit
  outValue : BitVec 32
  outKind : BitVec 4
  outInfo : ErrInfo
  deriving DecidableEq, Repr, Inhabited

/-- R32: how a `transfer32` may fail. -/
inductive TransportError where
  /-- "transport-level failure": the host reports `HardwareError` (R86). -/
  | failure
  /-- a transport timeout: the host reports `TimeoutError` (R86). -/
  | timeout
  deriving DecidableEq, Repr

/-- R32, R86: the kind the host reports for a failed exchange. -/
def TransportError.kind : TransportError → ErrorKind
  | .failure => .hardwareError
  | .timeout => .timeoutError

/-- R33: which request the reply word of an exchange answers. -/
inductive ReplyPairing where
  | sameExchange
  | nextExchange
  deriving DecidableEq, Repr, Inhabited

/-- R22, R24: the Device entity's mode. -/
inductive DeviceMode where
  | config
  | mission
  deriving DecidableEq, Repr

end Sys2Proof
end

