-- ==== Sys2Proof/Config.lean ====
section
/-! DEFINITION. The open parameters of R7 as fields of configuration records, the machine's own values of
them as constants without a body, and the free values of output ports (R17). Each constraint of R7 holds by
the shape of its field. -/

namespace Sys2Proof

/-- R7 `CRC_FEED`: a permutation of the byte indices (2, 1, 0), named by the order in which it feeds them. -/
inductive Feed where
  | f210
  | f201
  | f120
  | f102
  | f021
  | f012
  deriving DecidableEq, Repr, Inhabited

/-- The byte indices in the order fed, first to last. -/
def Feed.order : Feed → List Nat
  | .f210 => [2, 1, 0]
  | .f201 => [2, 0, 1]
  | .f120 => [1, 2, 0]
  | .f102 => [1, 0, 2]
  | .f021 => [0, 2, 1]
  | .f012 => [0, 1, 2]

/-- The six `CRC_*` parameters as the family of R56 has them. `poly` is unconstrained here, since R62 speaks
of the whole family. -/
structure CrcParams where
  poly : Byte
  init : Byte
  refIn : Bool
  refOut : Bool
  xorOut : Byte
  feed : Feed
  deriving DecidableEq, Repr, Inhabited

/-- R7: the open parameters. `polyPred` is `CRC_POLY` less one, so that `CRC_POLY ≠ 0x00` always holds;
`statusError` gives the kind of a non-zero status, so that `STATUS_KIND(s) = None` iff `s = 0`. -/
structure Params where
  polyPred : Fin 255
  crcInit : Byte
  crcRefIn : Bool
  crcRefOut : Bool
  crcXorOut : Byte
  crcFeed : Feed
  rwWrite : Bit
  addrHi : Addr → BitVec 7
  rdLow : Addr → BitVec 16
  statusError : BitVec 5 → StatusError
  reservedModeKind : ErrorKind
  deriving Inhabited

/-- R7 `CRC_POLY`. -/
def Params.crcPoly (P : Params) : Byte := BitVec.ofNat 8 (P.polyPred.val + 1)

/-- The member of the family of R56 that the parameters select. -/
def Params.crc (P : Params) : CrcParams :=
  { poly := P.crcPoly, init := P.crcInit, refIn := P.crcRefIn, refOut := P.crcRefOut,
    xorOut := P.crcXorOut, feed := P.crcFeed }

/-- R41: `RW_READ = 1 - RW_WRITE`. -/
def Params.rwRead (P : Params) : Bit := 1#1 - P.rwWrite

/-- R74 `STATUS_KIND`, with `None` as `none`. -/
def Params.statusKind (P : Params) (s : BitVec 5) : Option ErrorKind :=
  if s = 0#5 then none else some (P.statusError s).kind

/-- This machine's parameters: constant for the life of the block (R99) and known to no proof (log 5). -/
opaque Config.params : Params

/-- R33 `REPLY_PAIRING`, a parameter of the environment, open (log 12). -/
opaque Config.replyPairing : ReplyPairing

/-- The free values of the output ports outside their operation or mode (R17, R72, U10), one record per
draw; the argument is the counter `draws` of State (log 3). -/
opaque Config.drawnPorts : Nat → OutPorts

/-- R7, D6: the reference instance REF, for the numeric vectors alone. No meaning of the machine uses it. -/
def Params.ref : Params :=
  { polyPred := 0x1C
    crcInit := 0xFF#8
    crcRefIn := false
    crcRefOut := false
    crcXorOut := 0xFF#8
    crcFeed := .f210
    rwWrite := 1#1
    addrHi := fun a => a.extractLsb' 9 7
    rdLow := fun a => a
    statusError := fun s =>
      if s = 2#5 then .crcError
      else if s = 3#5 then .writeToReadOnly
      else if s = 4#5 then .registerError
      else .spiFrameError
    reservedModeKind := .spiFrameError }

end Sys2Proof
end

