-- ==== Sys2Proof/Syntax.lean ====
section
/-! DEFINITION. The instructions: one constructor per row of spec/opcode_table.json. The six operations take
their operands from the input ports (R16, R50); the six frame rows carry every bit of their word. -/

namespace Sys2Proof

/-- Which encoder built a transmit frame (R29: "a `frame_out` value from `ENCODE_READ` or `ENCODE_WRITE`"). -/
inductive TxKind where
  | read
  | write
  deriving DecidableEq, Repr

/-- Where a word stands (R37: "The word itself does not say which direction it travels; the port does"). -/
inductive Port where
  /-- the operation selector -/
  | op
  /-- a transmit frame, built by the encoder of this kind -/
  | frameOut (kind : TxKind)
  /-- a receive frame -/
  | frameIn
  deriving DecidableEq, Repr

/-- The rows of spec/opcode_table.json. -/
inductive Instr where
  /-- `CRC`, R55 -/
  | crc
  /-- `VERIFY_CRC`, R60 -/
  | verifyCrc
  /-- `ENCODE_READ`, R65 -/
  | encodeRead
  /-- `ENCODE_WRITE`, R66 -/
  | encodeWrite
  /-- `DECODE`, R71 -/
  | decode
  /-- `CLASSIFY`, R78 -/
  | classify
  /-- `TX_READ`, R38, R65: `crc[31:24] addr_hi[23:17] rw[16] low[15:0]` -/
  | txRead (crc : Byte) (addrHi : BitVec 7) (rw : Bit) (low : BitVec 16)
  /-- `TX_WRITE`, R38, R66 -/
  | txWrite (crc : Byte) (addrHi : BitVec 7) (rw : Bit) (low : BitVec 16)
  /-- `RX16`, R45: `crc[31:24] 00 status[21:17] rw_echo[16] data[15:0]` -/
  | rx16 (crc : Byte) (status : BitVec 5) (rwEcho : Bit) (data : BitVec 16)
  /-- `RX22`, R46: `crc[31:24] 01 wide[21:0]` -/
  | rx22 (crc : Byte) (wide : BitVec 22)
  /-- `RXCRIT`, R47: `undefined[31:24] 10 ignored[21:8] health[7:0]` -/
  | rxcrit (undef : Byte) (ignored : BitVec 14) (health : Byte)
  /-- `RXRSVD`, R48: `[31:24] 11 [21:0]`, all ignored but the mode -/
  | rxrsvd (high : Byte) (low : BitVec 22)
  deriving DecidableEq, Repr

end Sys2Proof
end

