-- ==== Sys2Proof/Machine/Operands.lean ====
section
/-! DEFINITION. Operand forms: the fields of a frame (R6, R38, R45 to R47), their assembly into a word, the
wire order of bits and bytes (R27, R28), and widening (R49). -/

namespace Sys2Proof.Machine

/-! ### Fields of a 32-bit frame -/

/-- Bits `[31:24]`, the CRC field. -/
def crcField (f : Frame) : Byte := f.extractLsb' 24 8

/-- Bits `[23:0]`, the payload. -/
def payloadField (f : Frame) : Payload := f.extractLsb' 0 24

/-- Transmit bits `[23:17]`, "register-address-high" (R38, R42). -/
def addrHiField (f : Frame) : BitVec 7 := f.extractLsb' 17 7

/-- Transmit bit `[16]`, "read/write flag" (R38, R41). -/
def rwField (f : Frame) : Bit := f.extractLsb' 16 1

/-- Transmit bits `[15:0]`, "data-or-address" (R38, R43, R44). -/
def lowField (f : Frame) : BitVec 16 := f.extractLsb' 0 16

/-- Receive bits `[23:22]`, the reply mode (R40). -/
def modeField (f : Frame) : BitVec 2 := f.extractLsb' 22 2

/-- 16-bit reply bits `[21:17]`, the status (R45). -/
def statusField (f : Frame) : BitVec 5 := f.extractLsb' 17 5

/-- 16-bit reply bit `[16]`, the rw-echo (R45). -/
def rwEchoField (f : Frame) : Bit := f.extractLsb' 16 1

/-- 16-bit reply bits `[15:0]`, the register data (R45). -/
def dataField (f : Frame) : BitVec 16 := f.extractLsb' 0 16

/-- 22-bit reply bits `[21:0]`, the wide data (R46). -/
def wideField (f : Frame) : BitVec 22 := f.extractLsb' 0 22

/-- Critical-fault reply bits `[7:0]`, the health flags (R47). -/
def healthField (f : Frame) : Byte := f.extractLsb' 0 8

/-- Critical-fault reply bits `[21:8]`, of which the spec says nothing (R47). -/
def ignoredField (f : Frame) : BitVec 14 := f.extractLsb' 8 14

/-- R40: the reply mode a 2-bit field selects. -/
def replyMode (m : BitVec 2) : ReplyMode :=
  if m = 0b00#2 then .reply16
  else if m = 0b01#2 then .reply22
  else if m = 0b10#2 then .critical
  else .reserved

/-- The 2-bit code of a reply mode, as `view_kind` carries it (R17, R40). -/
def replyModeCode : ReplyMode → BitVec 2
  | .reply16 => 0b00#2
  | .reply22 => 0b01#2
  | .critical => 0b10#2
  | .reserved => 0b11#2

/-! ### Assembly of words -/

/-- CRC field above payload (R38, R45, R46). -/
def joinFrame (crc : Byte) (p : Payload) : Frame := crc ++ p

/-- The payload of a transmit frame: 7 + 1 + 16 bits (R38, R65, R66). -/
def txPayload (addrHi : BitVec 7) (rw : Bit) (low : BitVec 16) : Payload := addrHi ++ rw ++ low

/-- The word of a transmit frame (R38). -/
def txWord (crc : Byte) (addrHi : BitVec 7) (rw : Bit) (low : BitVec 16) : Frame :=
  joinFrame crc (txPayload addrHi rw low)

/-- The word of a 16-bit reply (R45). -/
def rx16Word (crc : Byte) (status : BitVec 5) (rwEcho : Bit) (data : BitVec 16) : Frame :=
  joinFrame crc (0b00#2 ++ status ++ rwEcho ++ data)

/-- The word of a 22-bit reply (R46). -/
def rx22Word (crc : Byte) (wide : BitVec 22) : Frame :=
  joinFrame crc (0b01#2 ++ wide)

/-- The word of a critical-fault reply (R47). -/
def rxcritWord (undef : Byte) (ignored : BitVec 14) (health : Byte) : Frame :=
  joinFrame undef (0b10#2 ++ ignored ++ health)

/-- The word of a reserved reply (R48). -/
def rxrsvdWord (high : Byte) (low : BitVec 22) : Frame :=
  joinFrame high (0b11#2 ++ low)

/-! ### Wire order -/

/-- R28: the four bytes of a frame in wire order, `B3` first. -/
def frameBytes (f : Frame) : List Byte :=
  [f.extractLsb' 24 8, f.extractLsb' 16 8, f.extractLsb' 8 8, f.extractLsb' 0 8]

/-- The frame whose bytes in wire order are `B3`, `B2`, `B1`, `B0` (R28). -/
def ofFrameBytes (b3 b2 b1 b0 : Byte) : Frame := b3 ++ b2 ++ b1 ++ b0

/-- R27: the 32 bits of a frame in the order they are shifted, bit 31 first. -/
def wireBits (f : Frame) : List Bool := (List.range 32).map fun i => f.getLsbD (31 - i)

/-- R27: the frame that a sequence of bits shifted in makes, the first bit ending highest. -/
def ofWireBits (bits : List Bool) : Frame :=
  bits.foldl (fun f b => (f <<< 1) ||| (BitVec.ofBool b).setWidth 32) 0#32

/-! ### Operands and widening -/

/-- R11 `byte(p, k)`: bits `8k+7` to `8k` of a payload. -/
def payloadByte (p : Payload) (k : Nat) : Byte := p.extractLsb' (8 * k) 8

/-- R49: the `Ok` value of a 16-bit reply, zero-extended. -/
def widenData (d : BitVec 16) : BitVec 32 := d.setWidth 32

/-- R49: the `Ok` value of a 22-bit reply, zero-extended. -/
def widenWide (w : BitVec 22) : BitVec 32 := w.setWidth 32

/-- R17: `view_data` in a 16-bit reply, zero-extended to the 22-bit port. -/
def widenToViewData (d : BitVec 16) : BitVec 22 := d.setWidth 22

/-- R20: how the host drives `verify`: the per-call override if there is one, else the Device's flag. -/
def drivenVerify (override : Option Bit) (crcEnabled : Bool) : Bit :=
  override.getD (BitVec.ofBool crcEnabled)

end Sys2Proof.Machine
end

