-- ==== Sys2Proof/Decode.lean ====
section
/-! DEFINITION. Decoding: total on any bytes at any port, rejecting by name; and the encoder, written from
the same layouts (R38, R45 to R48, R50). -/

namespace Sys2Proof

/-- Why bytes are no instruction. -/
inductive Reject where
  /-- Selector codes 110 and 111 select no operation (R51). -/
  | reservedSelector (op : BitVec 3)
  /-- A selector byte with a bit set above the three of the `op` port (R16; log 16). -/
  | selectorTooWide (byte : Byte)
  /-- Not one byte for a selector, not four for a frame (R37: "Every frame is exactly 32 bits"). -/
  | wrongLength
  deriving DecidableEq, Repr

/-- R50, R51: the operation a selector code selects. -/
def decodeSelector (op : BitVec 3) : Except Reject Instr :=
  if op = 0b000#3 then .ok .crc
  else if op = 0b001#3 then .ok .verifyCrc
  else if op = 0b010#3 then .ok .encodeRead
  else if op = 0b011#3 then .ok .encodeWrite
  else if op = 0b100#3 then .ok .decode
  else if op = 0b101#3 then .ok .classify
  else .error (.reservedSelector op)

/-- R38: a transmit frame of the given kind. Every bit becomes a field (log 7). -/
def decodeTransmit (kind : TxKind) (f : Frame) : Instr :=
  match kind with
  | .read => .txRead (Machine.crcField f) (Machine.addrHiField f) (Machine.rwField f) (Machine.lowField f)
  | .write => .txWrite (Machine.crcField f) (Machine.addrHiField f) (Machine.rwField f) (Machine.lowField f)

/-- R40: a receive frame, its layout selected by `[23:22]`, which is looked at first. -/
def decodeReceive (f : Frame) : Instr :=
  match Machine.replyMode (Machine.modeField f) with
  | .reply16 => .rx16 (Machine.crcField f) (Machine.statusField f) (Machine.rwEchoField f) (Machine.dataField f)
  | .reply22 => .rx22 (Machine.crcField f) (Machine.wideField f)
  | .critical => .rxcrit (Machine.crcField f) (Machine.ignoredField f) (Machine.healthField f)
  | .reserved => .rxrsvd (Machine.crcField f) (Machine.wideField f)

/-- A selector as one byte, its five upper bits zero (log 16). -/
def decodeSelectorByte (b : Byte) : Except Reject Instr :=
  if b.extractLsb' 3 5 = 0#5 then decodeSelector (b.extractLsb' 0 3) else .error (.selectorTooWide b)

/-- The decoder: what the bytes at a port are. Frame bytes are in wire order (R28). -/
def decodeBytes : Port → List Byte → Except Reject Instr
  | .op, [b] => decodeSelectorByte b
  | .frameOut kind, [b3, b2, b1, b0] => .ok (decodeTransmit kind (Machine.ofFrameBytes b3 b2 b1 b0))
  | .frameIn, [b3, b2, b1, b0] => .ok (decodeReceive (Machine.ofFrameBytes b3 b2 b1 b0))
  | _, _ => .error .wrongLength

/-! ### Encoder -/

/-- A word of the instruction set: a 3-bit selector or a 32-bit frame, at its port. -/
inductive Word where
  | selector (op : BitVec 3)
  | transmit (kind : TxKind) (f : Frame)
  | receive (f : Frame)
  deriving DecidableEq, Repr

/-- The word of an instruction (R38, R45 to R48, R50). -/
def encodeWord : Instr → Word
  | .crc => .selector 0b000#3
  | .verifyCrc => .selector 0b001#3
  | .encodeRead => .selector 0b010#3
  | .encodeWrite => .selector 0b011#3
  | .decode => .selector 0b100#3
  | .classify => .selector 0b101#3
  | .txRead crc addrHi rw low => .transmit .read (Machine.txWord crc addrHi rw low)
  | .txWrite crc addrHi rw low => .transmit .write (Machine.txWord crc addrHi rw low)
  | .rx16 crc status rwEcho data => .receive (Machine.rx16Word crc status rwEcho data)
  | .rx22 crc wide => .receive (Machine.rx22Word crc wide)
  | .rxcrit undef ignored health => .receive (Machine.rxcritWord undef ignored health)
  | .rxrsvd high low => .receive (Machine.rxrsvdWord high low)

/-- The port a word stands at. -/
def Word.port : Word → Port
  | .selector _ => .op
  | .transmit kind _ => .frameOut kind
  | .receive _ => .frameIn

/-- A word's bytes: a selector in one byte, a frame in four, in wire order (R28). -/
def Word.bytes : Word → List Byte
  | .selector op => [op.setWidth 8]
  | .transmit _ f => Machine.frameBytes f
  | .receive f => Machine.frameBytes f

/-- The encoder: an instruction's port and its bytes there. -/
def encode (i : Instr) : Port × List Byte := ((encodeWord i).port, (encodeWord i).bytes)

/-! ### Words as spec/opcode_table.json numbers them -/

/-- The port at which a bare 32-bit word is read where nothing says its direction (R37). The table's rows
overlap, so this is a convention of the table-word functions alone (log 7): a word whose bits `[23:17]` are
zero is read as a transmit frame, its kind by the table's own match on bit 16 (the rows TX_READ and TX_WRITE
at REF), any other word as a receive frame. -/
def barePort (f : Frame) : Port :=
  if Machine.addrHiField f = 0#7 then
    (if Machine.rwField f = 1#1 then .frameOut .write else .frameOut .read)
  else .frameIn

/-- Where a table word stands and its bytes there. -/
def tableBytes (nbits w : Nat) : Port × List Byte :=
  if nbits ≤ 8 then (.op, [BitVec.ofNat 8 w])
  else (barePort (BitVec.ofNat 32 w), Machine.frameBytes (BitVec.ofNat 32 w))

/-- The instruction the decoder reads from a table word. -/
def decodeTableWord (nbits w : Nat) : Option Instr :=
  (decodeBytes (tableBytes nbits w).1 (tableBytes nbits w).2).toOption

end Sys2Proof
end

