-- ==== Sys2Proof/Machine/Checksum.lean ====
section
/-! DEFINITION. The checksum function of R56 and R57, and the two other realisations of R59. -/

namespace Sys2Proof.Machine

/-- R11 `reflect8`: bit `i` of the result is bit `7 - i` of the argument. -/
def reflect8 (b : Byte) : Byte := b.reverse

/-- R56 lines 6 and 7: one shift of the register. The bit shifted out is tested before the shift. -/
def shiftOnce (poly r : Byte) : Byte :=
  if r.getLsbD 7 then (r <<< 1) ^^^ poly else r <<< 1

/-- R56 line 5: `n` shifts. -/
def shiftTimes (poly : Byte) : Nat → Byte → Byte
  | 0, r => r
  | n + 1, r => shiftTimes poly n (shiftOnce poly r)

/-- R56 line 3: the byte as it enters the register. -/
def feedIn (c : CrcParams) (b : Byte) : Byte := if c.refIn then reflect8 b else b

/-- R56 lines 3 to 7: one byte of the message. -/
def crcByte (c : CrcParams) (r b : Byte) : Byte := shiftTimes c.poly 8 (r ^^^ feedIn c b)

/-- R56 lines 8 and 9. -/
def crcFinish (c : CrcParams) (r : Byte) : Byte := (if c.refOut then reflect8 r else r) ^^^ c.xorOut

/-- R56 `CRC8_BYTES`. -/
def crc8Bytes (c : CrcParams) (bs : List Byte) : Byte := crcFinish c (bs.foldl (crcByte c) c.init)

/-- R57: the three payload bytes in the order `CRC_FEED` gives. -/
def feedBytes (c : CrcParams) (p : Payload) : List Byte := c.feed.order.map (payloadByte p)

/-- R57 `CRC8`: the checksum of a payload. -/
def crc8 (c : CrcParams) (p : Payload) : Byte := crc8Bytes c (feedBytes c p)

/-- R60: does a frame's CRC field match its payload? -/
def crcMatches (c : CrcParams) (f : Frame) : Bool := crcField f == crc8 c (payloadField f)

/-! ### Other realisations (R59), for `CRC_REFIN = CRC_REFOUT = false` -/

/-- R59: one payload bit through the serial shift register of R23. -/
def serialBit (poly r : Byte) (m : Bool) : Byte :=
  if (r.getLsbD 7 ^^ m) then (r <<< 1) ^^^ poly else r <<< 1

/-- The bits of a byte, most significant first. -/
def byteBits (b : Byte) : List Bool := (List.range 8).map fun i => b.getLsbD (7 - i)

/-- R59, R23: the bit-serial checksum. The register is loaded with `CRC_INIT` at the start. -/
def crc8Serial (c : CrcParams) (p : Payload) : Byte :=
  ((feedBytes c p).flatMap byteBits).foldl (serialBit c.poly) c.init ^^^ c.xorOut

/-- R59: the table `T`, whose entry `i` is the register after eight shifts from `i`. -/
def crcTable (poly : Byte) : List Byte := (List.range 256).map fun i => shiftTimes poly 8 (BitVec.ofNat 8 i)

/-- R59: the table-driven checksum. -/
def crc8Table (c : CrcParams) (p : Payload) : Byte :=
  (feedBytes c p).foldl (fun r b => (crcTable c.poly).getD (r ^^^ b).toNat 0#8) c.init ^^^ c.xorOut

end Sys2Proof.Machine
end

