-- ==== Sys2Proof/Machine/Flags.lean ====
section
/-! DEFINITION. The results that behave like flags (R18) and the codes of kinds on the 4-bit ports (R84). -/

namespace Sys2Proof.Machine

/-- R84: the code of an error kind, its position in the document's list. -/
def kindCode : ErrorKind → BitVec 4
  | .hardwareError => 1#4
  | .timeoutError => 2#4
  | .crcError => 3#4
  | .wrongDeviceId => 4#4
  | .invalidChannel => 5#4
  | .invalidParameter => 6#4
  | .wrongMode => 7#4
  | .spiFrameError => 8#4
  | .writeToReadOnly => 9#4
  | .registerError => 10#4
  | .notInitialized => 11#4

/-- R84: the code of a kind or of none. -/
def optionKindCode : Option ErrorKind → BitVec 4
  | none => 0#4
  | some k => kindCode k

/-- R60: the flag `crc_ok`. -/
def crcOkFlag (c : CrcParams) (f : Frame) : Bit := if crcMatches c f then 1#1 else 0#1

/-- R78, R79: does the CRC test of `CLASSIFY` fail? Only where `verify = 1`. -/
def crcTestFails (c : CrcParams) (f : Frame) (verify : Bit) : Bool := verify == 1#1 && !crcMatches c f

/-- R17, R71: the flag `view_kind` of a view. -/
def viewKindFlag : ReplyView → BitVec 2
  | .reply16 .. => replyModeCode .reply16
  | .reply22 .. => replyModeCode .reply22
  | .critical _ => replyModeCode .critical
  | .reserved => replyModeCode .reserved

/-- R17: the flag `out_ok` of an outcome. -/
def outOkFlag : CodecOutcome → Bit
  | .ok _ => 1#1
  | .err _ _ => 0#1

end Sys2Proof.Machine
end

