-- ==== Sys2Proof/Machine/State.lean ====
section
/-! DEFINITION. The state: the ports (R16, R17), the exchange at the boundary (R29, R33), the Device-owned
bits of R24, and the host's program (R54, R106). The block itself keeps nothing between operations (R15). -/

namespace Sys2Proof.Machine

/-- No fault: the block has no trap (R90, R92, R95) and its operations are total (R55, R60, R65, R66, R71,
R78). Nobody raises one; safe (log 14). -/
inductive Fault where
  deriving DecidableEq, Repr

/-- Why a step gives no meaning. -/
inductive Refusal where
  /-- An instruction without a meaning; raised by no arm of this model. Safe. -/
  | notModelled (mnemonic : String)
  /-- The fetch of a line whose selector code is 110 or 111: "A model **refuses** them" (R51, U11). Safe. -/
  | reservedSelector (op : BitVec 3)
  /-- `TX_READ` or `TX_WRITE` while an exchange is in flight: "The host must not start an exchange before
  the previous one has returned" (R108); such a host is "outside the model (refused)" (D21). Safe (log 9). -/
  | exchangeInFlight
  /-- The fetch of a line that invokes `DECODE`, `VERIFY_CRC` or `CLASSIFY` for an exchange that returned no
  reply: "there is **no reply frame**" (R32), refused by U13. Safe (log 11). -/
  | noReplyFrame
  deriving DecidableEq, Repr

/-- What an exchange returned (R29, R32). -/
inductive XferResult where
  | reply (rx : Frame)
  | error (e : TransportError)
  deriving DecidableEq, Repr

/-- The exchange boundary as the host keeps it (R33, R35). -/
structure Xfer where
  /-- the transmit frame of the exchange under way -/
  inFlight : Option Frame
  /-- the transmit frame of the last completed exchange; none after a reply that came without one (log 10) -/
  previous : Option Frame
  /-- what the last completed exchange returned -/
  result : Option XferResult
  /-- the request that the last reply answers, under `REPLY_PAIRING` -/
  answers : Option Frame
  deriving DecidableEq, Repr

/-- The Device-owned bits R24 gives reset values for. They are outside the block. -/
structure Device where
  crcEnabled : Bool
  mode : DeviceMode
  ready : Bool
  deriving DecidableEq, Repr

/-- Where the host takes the frame it presents on `frame_in`: its own word, or the reply of the last
exchange (R29). -/
inductive FrameSource where
  | given (f : Frame)
  | reply
  deriving DecidableEq, Repr

/-- The operand values of an invocation (R16, R54). -/
structure Operands where
  address : Addr
  value : BitVec 16
  payload : Payload
  frameIn : FrameSource
  deriving DecidableEq, Repr

/-- One line of the host's program (R54). -/
inductive HostLine where
  /-- Invoke the operation with this selector code; `override` is the per-call `verify` override of R20. -/
  | invoke (op : BitVec 3) (operands : Operands) (override : Option Bit)
  /-- First half of an `XFER` line: the transmit frame, built by the encoder of this kind, goes out. -/
  | transmit (kind : TxKind) (tx : Frame)
  /-- Second half of an `XFER` line: the receive frame comes back. -/
  | receive (rx : Frame)
  /-- The exchange under way returned a transport error: there is no reply frame (R32). With none under way,
  another Transport Port call returned it (R86; log 10). -/
  | transportError (e : TransportError)
  /-- The Device entity changed its own bits (R21, R22). -/
  | device (d : Device)
  deriving DecidableEq, Repr

/-- The state. `draws` is the model's own: how many records of free output values have been used (log 3). -/
structure State where
  inp : InPorts
  out : OutPorts
  xfer : Xfer
  device : Device
  program : List HostLine
  draws : Nat
  deriving DecidableEq, Repr

/-- The exchange boundary before any exchange (log 18). -/
def Xfer.reset : Xfer := { inFlight := none, previous := none, result := none, answers := none }

/-- R24: the Device-owned bits after reset. -/
def Device.reset : Device := { crcEnabled := false, mode := .config, ready := false }

/-- The input ports before the host has driven them (log 4). -/
def resetInPorts : InPorts := { op := 0, address := 0, value := 0, payload := 0, frameIn := 0, verify := 0 }

/-- R24: after reset. The output ports are unspecified until an operation writes them (log 3); no program is
loaded (log 2). -/
def State.reset : State :=
  { inp := resetInPorts
    out := Config.drawnPorts 0
    xfer := Xfer.reset
    device := Device.reset
    program := []
    draws := 1 }

end Sys2Proof.Machine
end

