-- ==== Sys2Proof/Machine/Ops.lean ====
section
/-! DEFINITION. The named operations over the state: driving output ports, delivering an outcome (the one
way an error leaves the block, R90), the two ends of an exchange, and presenting an invocation's inputs. -/

namespace Sys2Proof.Machine

/-- Perform an operation: the ports it writes take their values, every other output port a draw (R17, R72). -/
def State.drive (write : OutPorts → OutPorts) (s : State) : State :=
  { s with out := write (Config.drawnPorts s.draws), draws := s.draws + 1 }

/-- Every output port outside its operation (R17). -/
def State.redraw (s : State) : State := s.drive fun p => p

/-! ### Writing the output ports -/

/-- R65, R66: `frame_out`. -/
def writeFrame (f : Frame) (p : OutPorts) : OutPorts := { p with frameOut := f }

/-- R55: `crc_out`. -/
def writeCrc (c : Byte) (p : OutPorts) : OutPorts := { p with crcOut := c }

/-- R60: `crc_ok`. -/
def writeCrcOk (b : Bit) (p : OutPorts) : OutPorts := { p with crcOk := b }

/-- R71: `view_kind` and the `view_*` ports of the view's case, and no port of another case. -/
def writeView (v : ReplyView) (p : OutPorts) : OutPorts :=
  match v with
  | .reply16 status statusKind rwEcho data crc =>
    { p with
      viewKind := viewKindFlag v, viewStatus := status, viewStatusKind := optionKindCode statusKind,
      viewRwEcho := rwEcho, viewData := widenToViewData data, viewCrc := crc }
  | .reply22 wide crc => { p with viewKind := viewKindFlag v, viewData := wide, viewCrc := crc }
  | .critical health => { p with viewKind := viewKindFlag v, viewHealth := health }
  | .reserved => { p with viewKind := viewKindFlag v }

/-- R78: the view ports that `CLASSIFY` writes: `view_kind`, and `view_health` where the view is critical. -/
def writeViewKind (v : ReplyView) (p : OutPorts) : OutPorts :=
  match v with
  | .critical health => { p with viewKind := viewKindFlag v, viewHealth := health }
  | .reply16 .. | .reply22 .. | .reserved => { p with viewKind := viewKindFlag v }

/-- R90: delivery of an outcome. An error is the result value on `out_ok = 0` with `out_kind` and its info;
no state is saved, no mode changes, control goes nowhere. -/
def deliver (o : CodecOutcome) (p : OutPorts) : OutPorts :=
  match o with
  | .ok v => { p with outOk := outOkFlag o, outValue := v }
  | .err k info => { p with outOk := outOkFlag o, outKind := kindCode k, outInfo := info }

/-! ### The exchange boundary -/

/-- R29, R35, R108: a transmit frame goes out and its exchange is under way; refused while another is. -/
def State.startExchange (tx : Frame) (s : State) : Host.Outcome State Fault Refusal :=
  match s.xfer.inFlight with
  | none => .next { s.redraw with xfer := { s.xfer with inFlight := some tx } }
  | some _ => .refused .exchangeInFlight

/-- R33: the request that a reply coming back now answers. -/
def Xfer.answeredNow (pairing : ReplyPairing) (x : Xfer) : Option Frame :=
  match pairing with
  | .sameExchange => x.inFlight
  | .nextExchange => x.previous

/-- R29, R33: the reply of the exchange comes back whole and the host presents it on `frame_in`. With no
exchange under way the spec says nothing; it is then recorded as the reply of an exchange whose request is not
known, so `previous` becomes none, and under `next_exchange` the following reply answers no request (log 10,
DESIGN CHOICE). -/
def Xfer.completeReply (pairing : ReplyPairing) (rx : Frame) (x : Xfer) : Xfer :=
  { inFlight := none, previous := x.inFlight, result := some (.reply rx), answers := x.answeredNow pairing }

/-- R32: the exchange under way returned an error; there is no reply frame, so nothing is answered. With none
under way the error is that of another Transport Port call (R86), on whose effect on the last exchange the spec
says nothing; the model leaves the exchange boundary as it is, the reply in hand included (log 10, DESIGN
CHOICE). -/
def Xfer.completeError (e : TransportError) (x : Xfer) : Xfer :=
  match x.inFlight with
  | some tx => { inFlight := none, previous := some tx, result := some (.error e), answers := none }
  | none => x

/-- R29: a receive frame on `frame_in`. No operation is invoked by it (R91; log 6). -/
def State.receiveFrame (rx : Frame) (s : State) : State :=
  { s.redraw with
    inp := { s.inp with frameIn := rx }
    xfer := s.xfer.completeReply Config.replyPairing rx }

/-- R32, R86: a Transport Port call returned an error; no frame reaches the block. -/
def State.failExchange (e : TransportError) (s : State) : State :=
  { s.redraw with xfer := s.xfer.completeError e }

/-- R21, R22: the Device entity, and no one else, changes its bits. -/
def State.setDevice (d : Device) (s : State) : State := { s.redraw with device := d }

/-! ### Presenting an invocation -/

/-- R32: the reply frame in hand: that of the last completed exchange, if it returned one and no exchange is
under way. -/
def Xfer.replyFrame (x : Xfer) : Option Frame :=
  match x.inFlight, x.result with
  | none, some (.reply rx) => some rx
  | _, _ => none

/-- The frame a source stands for. -/
def FrameSource.frame (x : Xfer) : FrameSource → Option Frame
  | .given f => some f
  | .reply => x.replyFrame

/-- R16: does the operation read `frame_in`? -/
def readsFrameIn : Instr → Bool
  | .verifyCrc => true
  | .decode => true
  | .classify => true
  | _ => false

/-- R16, R20: the input ports as an invocation drives them. A frame that is not there leaves `frame_in` as it
was, which only operations that ignore the port can meet. -/
def State.presentInputs (op : BitVec 3) (operands : Operands) (override : Option Bit) (s : State) : InPorts :=
  { op := op
    address := operands.address
    value := operands.value
    payload := operands.payload
    frameIn := (operands.frameIn.frame s.xfer).getD s.inp.frameIn
    verify := drivenVerify override s.device.crcEnabled }

/-! ### Fetching the next line of the program -/

/-- What the next line of the program is. -/
inductive Fetched where
  /-- a host event that is no instruction, already carried out -/
  | done (t : State)
  /-- a line without a meaning -/
  | refuse (r : Refusal)
  /-- an instruction, with its inputs presented -/
  | run (i : Instr) (t : State)
  deriving DecidableEq, Repr

/-- R50, R51, R32: an invocation, decoded from its selector code. -/
def State.fetchInvoke (op : BitVec 3) (operands : Operands) (override : Option Bit) (s : State) : Fetched :=
  match decodeSelector op with
  | .error _ => .refuse (.reservedSelector op)
  | .ok i =>
    if readsFrameIn i && (operands.frameIn.frame s.xfer).isNone then .refuse .noReplyFrame
    else .run i { s with inp := s.presentInputs op operands override }

/-- The line a state is to carry out, the rest of the program left in the state (R54, R106). -/
def State.fetchLine (line : HostLine) (s : State) : Fetched :=
  match line with
  | .invoke op operands override => s.fetchInvoke op operands override
  | .transmit kind tx => .run (decodeTransmit kind tx) s
  | .receive rx => .run (decodeReceive rx) s
  | .transportError e => .done (s.failExchange e)
  | .device d => .done (s.setDevice d)

/-- R106: lines run top to bottom; with none left the block waits, its output ports unspecified (R17). -/
def State.fetch (s : State) : Fetched :=
  match s.program with
  | [] => .done s.redraw
  | line :: rest => { s with program := rest }.fetchLine line

/-- One element of `transfer_many`: the frame sent, and what its `transfer32` returns (R29, R32). -/
structure Exchange where
  kind : TxKind
  tx : Frame
  result : XferResult
  deriving DecidableEq, Repr

/-- The line that ends an exchange: its reply, or its error. -/
def XferResult.line : XferResult → HostLine
  | .reply rx => .receive rx
  | .error e => .transportError e

/-- R29, R32, R54: the two lines of one exchange (log 2). -/
def Exchange.lines (x : Exchange) : List HostLine := [.transmit x.kind x.tx, x.result.line]

/-- R30 `transfer_many`: the sequential application of exchanges, in index order. Each element of `tx` stands
beside its result, so lists of different lengths cannot be expressed; the spec says neither what the call does
with those nor whether it goes on after an element that fails, and the list may end there or go on (log 20,
DESIGN CHOICE). -/
def transferMany (xs : List Exchange) : List HostLine := xs.flatMap Exchange.lines

/-- The error an exchange returned, if it did. -/
def Exchange.error? (x : Exchange) : Option TransportError :=
  match x.result with
  | .reply _ => none
  | .error e => some e

/-- R30: the `Result<()>` of `transfer_many`, none for `Ok(())`: the error of the first element that failed
(log 20). -/
def transferManyResult (xs : List Exchange) : Option TransportError := xs.findSome? Exchange.error?

/-- The invocation that keeps every operand port as it stands. -/
def State.heldOperands (s : State) : Operands :=
  { address := s.inp.address, value := s.inp.value, payload := s.inp.payload, frameIn := .given s.inp.frameIn }

/-- The line that carries a word at a port, the operand ports of the state held as they are. Only three bits
reach the `op` port: of a selector word that is too wide, which the decoder rejects, the low three are presented
(log 16, DESIGN CHOICE). -/
def State.lineOf (port : Port) (w : Nat) (s : State) : HostLine :=
  match port with
  | .op => .invoke (BitVec.ofNat 3 w) s.heldOperands (some s.inp.verify)
  | .frameOut kind => .transmit kind (BitVec.ofNat 32 w)
  | .frameIn => .receive (BitVec.ofNat 32 w)

end Sys2Proof.Machine
end

