-- ==== Sys2Proof/Machine/Crc.lean ====
section
/-! DEFINITION. The family of the checksum operations (40_crc.md). -/

namespace Sys2Proof.Machine

/-- `CRC`, R55: `crc_out <- CRC8(payload)`; only `crc_out` is written. -/
def execCrc (s : State) : Host.Outcome State Fault Refusal :=
  .next (s.drive (writeCrc (crc8 Config.params.crc s.inp.payload)))

/-- `VERIFY_CRC`, R60: `crc_ok` tells whether the CRC field of `frame_in` is its payload's checksum. -/
def execVerifyCrc (s : State) : Host.Outcome State Fault Refusal :=
  .next (s.drive (writeCrcOk (crcOkFlag Config.params.crc s.inp.frameIn)))

end Sys2Proof.Machine
end

