-- ==== Sys2Proof/Machine/Encode.lean ====
section
/-! DEFINITION. The family of the frame encoder (41_encode.md). -/

namespace Sys2Proof.Machine

/-- R39, R67: a payload under its checksum; the encoder always fills the CRC field. -/
def withChecksum (c : CrcParams) (p : Payload) : Frame := joinFrame (crc8 c p) p

/-- R65: the request to read one register. -/
def encodeReadFrame (P : Params) (address : Addr) : Frame :=
  withChecksum P.crc (txPayload (P.addrHi address) P.rwRead (P.rdLow address))

/-- R66: the request to write one value to one register. -/
def encodeWriteFrame (P : Params) (address : Addr) (value : BitVec 16) : Frame :=
  withChecksum P.crc (txPayload (P.addrHi address) P.rwWrite value)

/-- `ENCODE_READ`, R65: only `frame_out` is written; the `value` port is ignored. -/
def execEncodeRead (s : State) : Host.Outcome State Fault Refusal :=
  .next (s.drive (writeFrame (encodeReadFrame Config.params s.inp.address)))

/-- `ENCODE_WRITE`, R66: only `frame_out` is written. -/
def execEncodeWrite (s : State) : Host.Outcome State Fault Refusal :=
  .next (s.drive (writeFrame (encodeWriteFrame Config.params s.inp.address s.inp.value)))

end Sys2Proof.Machine
end

