-- ==== Sys2Proof/Machine/Reply.lean ====
section
/-! DEFINITION. The family of the frame decoder and reply classifier (42_decode.md). -/

namespace Sys2Proof.Machine

/-- R71: the reply mode is read first, then the fields of that mode's layout and of no other. -/
def decodeReply (P : Params) (f : Frame) : ReplyView :=
  match replyMode (modeField f) with
  | .reply16 =>
    .reply16 (statusField f) (P.statusKind (statusField f)) (rwEchoField f) (dataField f) (crcField f)
  | .reply22 => .reply22 (wideField f) (crcField f)
  | .critical => .critical (healthField f)
  | .reserved => .reserved

/-- R78, R87: the judgement of a reply, tests in the order mode, CRC where `verify = 1`, status. -/
def classifyReply (P : Params) (f : Frame) (verify : Bit) : CodecOutcome :=
  match decodeReply P f with
  | .critical health => .err .hardwareError (.health health)
  | .reserved => .err P.reservedModeKind .none
  | .reply16 status statusKind _ data _ =>
    if crcTestFails P.crc f verify then .err .crcError .localMismatch
    else
      match statusKind with
      | some k => .err k (.status status)
      | none => .ok (widenData data)
  | .reply22 wide _ =>
    if crcTestFails P.crc f verify then .err .crcError .localMismatch
    else .ok (widenWide wide)

/-- `DECODE`, R71: `view_kind` and the ports of the view's case are written; every other port is a draw. -/
def execDecode (s : State) : Host.Outcome State Fault Refusal :=
  .next (s.drive (writeView (decodeReply Config.params s.inp.frameIn)))

/-- `CLASSIFY`, R78: the outcome is delivered on `out_ok` with `out_value` or `out_kind`, beside `view_kind`
and, for a critical-fault reply, `view_health`. -/
def execClassify (s : State) : Host.Outcome State Fault Refusal :=
  .next (s.drive fun p =>
    deliver (classifyReply Config.params s.inp.frameIn s.inp.verify)
      (writeViewKind (decodeReply Config.params s.inp.frameIn) p))

end Sys2Proof.Machine
end

