-- ==== Sys2Proof/Machine/Wire.lean ====
section
/-! DEFINITION. The family of the frame rows (30_encoding.md): a transmit frame that goes out and a receive
frame that comes back, the two halves of an `XFER` line (R29, R33, R54; log 6). -/

namespace Sys2Proof.Machine

/-- `TX_READ`, R38, R65: the frame is the `tx` of an exchange that starts. -/
def execTxRead (crc : Byte) (addrHi : BitVec 7) (rw : Bit) (low : BitVec 16) (s : State) :
    Host.Outcome State Fault Refusal :=
  s.startExchange (txWord crc addrHi rw low)

/-- `TX_WRITE`, R38, R66: the frame is the `tx` of an exchange that starts. -/
def execTxWrite (crc : Byte) (addrHi : BitVec 7) (rw : Bit) (low : BitVec 16) (s : State) :
    Host.Outcome State Fault Refusal :=
  s.startExchange (txWord crc addrHi rw low)

/-- `RX16`, R45: the 16-bit reply is presented on `frame_in`. -/
def execRx16 (crc : Byte) (status : BitVec 5) (rwEcho : Bit) (data : BitVec 16) (s : State) :
    Host.Outcome State Fault Refusal :=
  .next (s.receiveFrame (rx16Word crc status rwEcho data))

/-- `RX22`, R46: the 22-bit reply is presented on `frame_in`. -/
def execRx22 (crc : Byte) (wide : BitVec 22) (s : State) : Host.Outcome State Fault Refusal :=
  .next (s.receiveFrame (rx22Word crc wide))

/-- `RXCRIT`, R47: the critical-fault reply is presented on `frame_in`. -/
def execRxcrit (undef : Byte) (ignored : BitVec 14) (health : Byte) (s : State) :
    Host.Outcome State Fault Refusal :=
  .next (s.receiveFrame (rxcritWord undef ignored health))

/-- `RXRSVD`, R48: the reserved reply is presented on `frame_in`. -/
def execRxrsvd (high : Byte) (low : BitVec 22) (s : State) : Host.Outcome State Fault Refusal :=
  .next (s.receiveFrame (rxrsvdWord high low))

end Sys2Proof.Machine
end

