-- ==== Sys2Proof/Machine/Dispatch.lean ====
section
/-! DEFINITION. One arm per row of spec/opcode_table.json. -/

namespace Sys2Proof.Machine

def exec (i : Instr) (s : State) : Host.Outcome State Fault Refusal :=
  match i with
  | .crc => Sys2Proof.Machine.execCrc s
  | .verifyCrc => Sys2Proof.Machine.execVerifyCrc s
  | .encodeRead => Sys2Proof.Machine.execEncodeRead s
  | .encodeWrite => Sys2Proof.Machine.execEncodeWrite s
  | .decode => Sys2Proof.Machine.execDecode s
  | .classify => Sys2Proof.Machine.execClassify s
  | .txRead crc addrHi rw low => Sys2Proof.Machine.execTxRead crc addrHi rw low s
  | .txWrite crc addrHi rw low => Sys2Proof.Machine.execTxWrite crc addrHi rw low s
  | .rx16 crc status rwEcho data => Sys2Proof.Machine.execRx16 crc status rwEcho data s
  | .rx22 crc wide => Sys2Proof.Machine.execRx22 crc wide s
  | .rxcrit undef ignored health => Sys2Proof.Machine.execRxcrit undef ignored health s
  | .rxrsvd high low => Sys2Proof.Machine.execRxrsvd high low s

end Sys2Proof.Machine
end

