-- ==== Sys2Proof/Machine/Step.lean ====
section
/-! DEFINITION. One step: the next line of the host's program (R106), each an atomic step (R112). -/

namespace Sys2Proof.Machine

/-- One step. -/
def step (s : State) : Host.Outcome State Fault Refusal :=
  match s.fetch with
  | .done t => .next t
  | .refuse r => .refused r
  | .run i t => exec i t

/-- The state whose next line carries the given table word (log 2, log 7). -/
def State.withFetchWord (s : State) (nbits w : Nat) : State :=
  { s with program := s.lineOf (tableBytes nbits w).1 w :: s.program }

end Sys2Proof.Machine
end

