-- ==== Sys2Proof/WellFormed.lean ====
section
/-! DEFINITION. Which instructions are well formed under given parameters. A transmit frame is well formed
when its flag is that of its encoder (R41) and its CRC field the checksum of its payload (R39). The selectors
carry no operand, and every word is a legal receive frame (R52). -/

namespace Sys2Proof

/-- R41: the read/write flag of the frames an encoder builds. -/
def Params.rwOf (P : Params) : TxKind → Bit
  | .read => P.rwRead
  | .write => P.rwWrite

/-- R39, R41: the check on a transmit frame. -/
def txWellFormed (P : Params) (kind : TxKind) (crc : Byte) (addrHi : BitVec 7) (rw : Bit) (low : BitVec 16) :
    Bool :=
  rw == P.rwOf kind && crc == Machine.crc8 P.crc (Machine.txPayload addrHi rw low)

/-- The check, constructor by constructor. -/
def Instr.wellFormed (P : Params) : Instr → Bool
  | .crc => true
  | .verifyCrc => true
  | .encodeRead => true
  | .encodeWrite => true
  | .decode => true
  | .classify => true
  | .txRead check addrHi rw low => txWellFormed P .read check addrHi rw low
  | .txWrite check addrHi rw low => txWellFormed P .write check addrHi rw low
  | .rx16 _ _ _ _ => true
  | .rx22 _ _ => true
  | .rxcrit _ _ _ => true
  | .rxrsvd _ _ => true

end Sys2Proof
end

