-- ==== Sys2Proof/Safety.lean ====
section
/-! DEFINITION. The terms in which statements speak: what an instruction keeps, which ports it reads and
writes, how a word is taken as a mode, and the invariant of the exchange boundary. -/

namespace Sys2Proof.Machine

/-- Everything but the output ports and the draw counter is as before. The block has no other state (R15). -/
structure State.Kept (s t : State) : Prop where
  inp : t.inp = s.inp
  xfer : t.xfer = s.xfer
  device : t.device = s.device
  program : t.program = s.program
  draws : t.draws = s.draws + 1

/-- R16: two sets of input ports that agree on the operands the table lists for an operation. A frame row
takes no operand from a port. -/
def operandsAgree (i : Instr) (p q : InPorts) : Prop :=
  match i with
  | .crc => p.payload = q.payload
  | .verifyCrc => p.frameIn = q.frameIn
  | .encodeRead => p.address = q.address
  | .encodeWrite => p.address = q.address ∧ p.value = q.value
  | .decode => p.frameIn = q.frameIn
  | .classify => p.frameIn = q.frameIn ∧ p.verify = q.verify
  | .txRead .. | .txWrite .. | .rx16 .. | .rx22 .. | .rxcrit .. | .rxrsvd .. => True

/-- R17: two sets of output ports that agree on every port that is valid for an operation, in the reply mode
or outcome that `p` shows. A frame row writes no output port. -/
def resultsAgree (i : Instr) (p q : OutPorts) : Prop :=
  match i with
  | .crc => p.crcOut = q.crcOut
  | .verifyCrc => p.crcOk = q.crcOk
  | .encodeRead => p.frameOut = q.frameOut
  | .encodeWrite => p.frameOut = q.frameOut
  | .decode =>
    p.viewKind = q.viewKind ∧
    (p.viewKind = 0#2 →
      p.viewStatus = q.viewStatus ∧ p.viewStatusKind = q.viewStatusKind ∧ p.viewRwEcho = q.viewRwEcho) ∧
    (p.viewKind = 0#2 ∨ p.viewKind = 1#2 → p.viewData = q.viewData ∧ p.viewCrc = q.viewCrc) ∧
    (p.viewKind = 2#2 → p.viewHealth = q.viewHealth)
  | .classify =>
    p.outOk = q.outOk ∧ p.viewKind = q.viewKind ∧
    (p.outOk = 1#1 → p.outValue = q.outValue) ∧
    (p.outOk = 0#1 → p.outKind = q.outKind ∧ p.outInfo = q.outInfo) ∧
    (p.viewKind = 2#2 → p.viewHealth = q.viewHealth)
  | .txRead .. | .txWrite .. | .rx16 .. | .rx22 .. | .rxcrit .. | .rxrsvd .. => True

/-- The invariant of the exchange boundary (R32, R33): before any exchange has completed nothing is recorded;
an exchange that returned an error answers nothing; with `REPLY_PAIRING = same_exchange` a reply answers the
transmit frame of its own exchange. -/
def Xfer.Coherent (pairing : ReplyPairing) (x : Xfer) : Prop :=
  match x.result with
  | none => x.previous = none ∧ x.answers = none
  | some (.error _) => x.answers = none
  | some (.reply _) => pairing = .sameExchange → x.answers = x.previous

/-- The invariant that every step keeps. -/
def State.Inv (s : State) : Prop := s.xfer.Coherent Config.replyPairing

/-- A run is safe as long as no step is refused: the host uses only selectors that exist (R51), one exchange
at a time (R108), and invokes nothing for an exchange without a reply (R32). -/
def State.StepIsSafe (s : State) : Prop := ∃ t, step s = .next t

end Sys2Proof.Machine
end

