-- ==== Sys2Proof/Certificates/Slice0/Obligations.lean ====
section
/-! DEFINITION. The statements for the provers. `Config.params` are this machine's open parameters (R7), of
which nothing is known; statements over all `Params` or `CrcParams` hold of every instance. -/

open Sys2Proof Sys2Proof.Machine

/-! ### The operations: results, completion, frame -/

/-- R55. `CRC` answers for every state and payload: `crc_out` is `CRC8(payload)`, every other output port is a
draw (R17), nothing else changes. With the selector code and the worked example at REF. -/
def Obligations.CrcWritesTheChecksum : Prop :=
  decodeSelector 0b000#3 = .ok .crc ∧
  (∀ s : State, exec .crc s = .next
    { s with
      out := { Config.drawnPorts s.draws with crcOut := crc8 Config.params.crc s.inp.payload }
      draws := s.draws + 1 }) ∧
  crc8 Params.ref.crc 0x000000#24 = 0xF1#8 ∧
  crcByte Params.ref.crc 0xFF#8 0x01#8 = 0xD9#8 ∧ crcByte Params.ref.crc 0xD9#8 0xBE#8 = 0xC7#8 ∧
  crcByte Params.ref.crc 0xC7#8 0xEF#8 = 0x6F#8 ∧ crc8 Params.ref.crc 0x01BEEF#24 = 0x90#8

/-- R60. `VERIFY_CRC` answers for every state and word: `crc_ok` is 1 exactly when `frame_in[31:24]` is the
checksum of `frame_in[23:0]`, every other output port is a draw, nothing else changes. -/
def Obligations.VerifyCrcComparesFieldWithChecksum : Prop :=
  decodeSelector 0b001#3 = .ok .verifyCrc ∧
  (∀ s : State, exec .verifyCrc s = .next
    { s with
      out := { Config.drawnPorts s.draws with
        crcOk :=
          if s.inp.frameIn.extractLsb' 24 8 = crc8 Config.params.crc (s.inp.frameIn.extractLsb' 0 24)
          then 1#1 else 0#1 }
      draws := s.draws + 1 }) ∧
  crcMatches Params.ref.crc 0x9001BEEF#32 = true ∧ crcMatches Params.ref.crc 0x9101BEEF#32 = false ∧
  crcMatches Params.ref.crc 0x9001BEEE#32 = false

/-- R65. `ENCODE_READ` answers for every state: `frame_out` has the checksum of its low 24 bits, `ADDR_HI`,
`RW_READ` and `RD_LOW` in its four fields, every other output port is a draw, nothing else changes. -/
def Obligations.EncodeReadBuildsTheReadRequest : Prop :=
  decodeSelector 0b010#3 = .ok .encodeRead ∧
  (∀ s : State, ∃ f : Frame,
    exec .encodeRead s = .next
      { s with out := { Config.drawnPorts s.draws with frameOut := f }, draws := s.draws + 1 } ∧
    f.extractLsb' 24 8 = crc8 Config.params.crc (f.extractLsb' 0 24) ∧
    f.extractLsb' 17 7 = Config.params.addrHi s.inp.address ∧
    f.extractLsb' 16 1 = 1#1 - Config.params.rwWrite ∧
    f.extractLsb' 0 16 = Config.params.rdLow s.inp.address) ∧
  encodeReadFrame Params.ref 0x0104#16 = 0xC9000104#32

/-- R66. `ENCODE_WRITE` answers for every state: `frame_out` has the checksum of its low 24 bits, `ADDR_HI`,
`RW_WRITE` and the value in its four fields, every other output port is a draw, nothing else changes. -/
def Obligations.EncodeWriteBuildsTheWriteRequest : Prop :=
  decodeSelector 0b011#3 = .ok .encodeWrite ∧
  (∀ s : State, ∃ f : Frame,
    exec .encodeWrite s = .next
      { s with out := { Config.drawnPorts s.draws with frameOut := f }, draws := s.draws + 1 } ∧
    f.extractLsb' 24 8 = crc8 Config.params.crc (f.extractLsb' 0 24) ∧
    f.extractLsb' 17 7 = Config.params.addrHi s.inp.address ∧
    f.extractLsb' 16 1 = Config.params.rwWrite ∧
    f.extractLsb' 0 16 = s.inp.value) ∧
  encodeWriteFrame Params.ref 0x0104#16 0xBEEF#16 = 0x9001BEEF#32 ∧
  encodeWriteFrame Params.ref 0x1234#16 0x5678#16 = 0x3F135678#32

/-- R71. `DECODE` answers for every state: `view_kind` is `frame_in[23:22]`, the ports of that mode's layout
take its fields, every other output port is a draw, nothing else changes. -/
def Obligations.DecodeTakesApartByReplyMode : Prop :=
  decodeSelector 0b100#3 = .ok .decode ∧
  (∀ s : State, ∃ t : State, exec .decode s = .next t ∧ s.Kept t ∧
    (s.inp.frameIn.extractLsb' 22 2 = 0b00#2 →
      t.out = { Config.drawnPorts s.draws with
        viewKind := 0#2
        viewStatus := s.inp.frameIn.extractLsb' 17 5
        viewStatusKind := optionKindCode (Config.params.statusKind (s.inp.frameIn.extractLsb' 17 5))
        viewRwEcho := s.inp.frameIn.extractLsb' 16 1
        viewData := (s.inp.frameIn.extractLsb' 0 16).setWidth 22
        viewCrc := s.inp.frameIn.extractLsb' 24 8 }) ∧
    (s.inp.frameIn.extractLsb' 22 2 = 0b01#2 →
      t.out = { Config.drawnPorts s.draws with
        viewKind := 1#2
        viewData := s.inp.frameIn.extractLsb' 0 22
        viewCrc := s.inp.frameIn.extractLsb' 24 8 }) ∧
    (s.inp.frameIn.extractLsb' 22 2 = 0b10#2 →
      t.out = { Config.drawnPorts s.draws with
        viewKind := 2#2, viewHealth := s.inp.frameIn.extractLsb' 0 8 }) ∧
    (s.inp.frameIn.extractLsb' 22 2 = 0b11#2 →
      t.out = { Config.drawnPorts s.draws with viewKind := 3#2 })) ∧
  decodeReply Params.ref 0x69071234#32 = .reply16 0b00011#5 (some .writeToReadOnly) 1#1 0x1234#16 0x69#8 ∧
  decodeReply Params.ref 0x8F6ABCDE#32 = .reply22 0x2ABCDE#22 0x8F#8 ∧
  decodeReply Params.ref 0xFF800055#32 = .critical 0x55#8 ∧
  decodeReply Params.ref 0x12C00000#32 = .reserved

/-- R78, R87. `CLASSIFY` answers for every state. Its tests stand in the order mode, CRC where `verify = 1`,
status; the first that holds decides the ports, every port not written is a draw, nothing else changes. -/
def Obligations.ClassifyTestsModeThenCrcThenStatus : Prop :=
  ∀ s : State, ∃ t : State, exec .classify s = .next t ∧ s.Kept t ∧
    t.out =
      if s.inp.frameIn.extractLsb' 22 2 = 0b10#2 then
        { Config.drawnPorts s.draws with
          viewKind := 2#2, viewHealth := s.inp.frameIn.extractLsb' 0 8, outOk := 0#1
          outKind := kindCode .hardwareError, outInfo := .health (s.inp.frameIn.extractLsb' 0 8) }
      else if s.inp.frameIn.extractLsb' 22 2 = 0b11#2 then
        { Config.drawnPorts s.draws with
          viewKind := 3#2, outOk := 0#1, outKind := kindCode Config.params.reservedModeKind, outInfo := .none }
      else if s.inp.verify = 1#1 ∧
          s.inp.frameIn.extractLsb' 24 8 ≠ crc8 Config.params.crc (s.inp.frameIn.extractLsb' 0 24) then
        { Config.drawnPorts s.draws with
          viewKind := s.inp.frameIn.extractLsb' 22 2, outOk := 0#1
          outKind := kindCode .crcError, outInfo := .localMismatch }
      else if s.inp.frameIn.extractLsb' 22 2 = 0b00#2 ∧ s.inp.frameIn.extractLsb' 17 5 ≠ 0#5 then
        { Config.drawnPorts s.draws with
          viewKind := 0#2, outOk := 0#1
          outKind := kindCode (Config.params.statusError (s.inp.frameIn.extractLsb' 17 5)).kind
          outInfo := .status (s.inp.frameIn.extractLsb' 17 5) }
      else if s.inp.frameIn.extractLsb' 22 2 = 0b00#2 then
        { Config.drawnPorts s.draws with
          viewKind := 0#2, outOk := 1#1, outValue := (s.inp.frameIn.extractLsb' 0 16).setWidth 32 }
      else
        { Config.drawnPorts s.draws with
          viewKind := 1#2, outOk := 1#1, outValue := (s.inp.frameIn.extractLsb' 0 22).setWidth 32 }

/-- R29, R38, log 6. `TX_READ` and `TX_WRITE` answer wherever no exchange is in flight: the frame is the one
under way, the output ports are draws, nothing else changes. -/
def Obligations.TransmitFramesStartAnExchange : Prop :=
  ∀ (s : State) (crc : Byte) (addrHi : BitVec 7) (rw : Bit) (low : BitVec 16), s.xfer.inFlight = none →
    ∃ f : Frame,
      f.extractLsb' 24 8 = crc ∧ f.extractLsb' 17 7 = addrHi ∧ f.extractLsb' 16 1 = rw ∧ f.extractLsb' 0 16 = low ∧
      exec (.txRead crc addrHi rw low) s = .next
        { s with
          xfer := { s.xfer with inFlight := some f }, out := Config.drawnPorts s.draws, draws := s.draws + 1 } ∧
      exec (.txWrite crc addrHi rw low) s = .next
        { s with
          xfer := { s.xfer with inFlight := some f }, out := Config.drawnPorts s.draws, draws := s.draws + 1 }

/-- R108, D21. While an exchange is in flight, `TX_READ` and `TX_WRITE` are refused by name. -/
def Obligations.SecondTransmitIsRefused : Prop :=
  ∀ (s : State) (tx : Frame) (crc : Byte) (addrHi : BitVec 7) (rw : Bit) (low : BitVec 16),
    s.xfer.inFlight = some tx →
      exec (.txRead crc addrHi rw low) s = .refused .exchangeInFlight ∧
      exec (.txWrite crc addrHi rw low) s = .refused .exchangeInFlight

/-- R29, R33, R45 to R48, log 6, log 10, log 12. Every receive row answers in every state: the word of its fields stands on
`frame_in`, the exchange is over and its result is that word, the request it answers is the one `REPLY_PAIRING`
says, the other inputs, the Device's bits and the program are kept, and the output ports are draws. -/
def Obligations.ReceiveFramesArePresented : Prop :=
  ∀ (s : State) (i : Instr) (f : Frame),
    (∃ crc status rwEcho data, i = .rx16 crc status rwEcho data ∧ f = rx16Word crc status rwEcho data) ∨
    (∃ crc wide, i = .rx22 crc wide ∧ f = rx22Word crc wide) ∨
    (∃ undef ignored health, i = .rxcrit undef ignored health ∧ f = rxcritWord undef ignored health) ∨
    (∃ high low, i = .rxrsvd high low ∧ f = rxrsvdWord high low) →
    exec i s = .next
      { inp := { s.inp with frameIn := f }
        out := Config.drawnPorts s.draws
        xfer :=
          { inFlight := none, previous := s.xfer.inFlight, result := some (.reply f)
            answers :=
              if Config.replyPairing = .sameExchange then s.xfer.inFlight else s.xfer.previous }
        device := s.device
        program := s.program
        draws := s.draws + 1 }

/-- R29, R45 to R48, R71. A receive frame that has arrived (it stands on `frame_in`: log 6, DEDUCED) and is then
decoded shows its own fields, whatever the state before: status, rw-echo, data and CRC of a 16-bit reply; wide data and CRC of a 22-bit reply; the health
byte of a critical-fault reply; nothing of a reserved one. -/
def Obligations.ArrivedReplyDecodesToItsFields : Prop :=
  ∀ s : State,
    (∀ crc status rwEcho data, ∃ t u, exec (.rx16 crc status rwEcho data) s = .next t ∧ exec .decode t = .next u ∧
      u.out.viewKind = 0#2 ∧ u.out.viewStatus = status ∧ u.out.viewRwEcho = rwEcho ∧
      u.out.viewStatusKind = optionKindCode (Config.params.statusKind status) ∧
      u.out.viewData = data.setWidth 22 ∧ u.out.viewCrc = crc) ∧
    (∀ crc wide, ∃ t u, exec (.rx22 crc wide) s = .next t ∧ exec .decode t = .next u ∧
      u.out.viewKind = 1#2 ∧ u.out.viewData = wide ∧ u.out.viewCrc = crc) ∧
    (∀ undef ignored health, ∃ t u, exec (.rxcrit undef ignored health) s = .next t ∧ exec .decode t = .next u ∧
      u.out.viewKind = 2#2 ∧ u.out.viewHealth = health) ∧
    (∀ high low, ∃ t u, exec (.rxrsvd high low) s = .next t ∧ exec .decode t = .next u ∧ u.out.viewKind = 3#2)

/-- R29, R47, R48, R76, R78, R79, R81. A receive frame that has arrived (it stands on `frame_in`: log 6, DEDUCED)
and is then classified, with either `verify`: a critical-fault reply is `HardwareError` with its health byte, a
reserved one `RESERVED_MODE_KIND`, a 16-bit or 22-bit reply whose CRC test fails `CRCError` with cause local
mismatch; where that test does not fail, a 16-bit reply with a non-zero status is its status kind, and its data
with status 0, and a 22-bit reply its wide data. The info is the model's `outInfo` (log 8). -/
def Obligations.ArrivedReplyIsJudgedByItsLayout : Prop :=
  ∀ s : State,
    (∀ undef ignored health, ∃ t u, exec (.rxcrit undef ignored health) s = .next t ∧ exec .classify t = .next u ∧
      u.out.outOk = 0#1 ∧ u.out.outKind = 1#4 ∧ u.out.viewHealth = health ∧ u.out.outInfo = .health health) ∧
    (∀ high low, ∃ t u, exec (.rxrsvd high low) s = .next t ∧ exec .classify t = .next u ∧
      u.out.outOk = 0#1 ∧ u.out.outKind = kindCode Config.params.reservedModeKind ∧ u.out.outInfo = .none) ∧
    (∀ crc status rwEcho data, ∃ t u, exec (.rx16 crc status rwEcho data) s = .next t ∧
      exec .classify t = .next u ∧
      (s.inp.verify = 1#1 → crcMatches Config.params.crc (rx16Word crc status rwEcho data) = false →
        u.out.outOk = 0#1 ∧ u.out.outKind = 3#4 ∧ u.out.outInfo = .localMismatch) ∧
      (s.inp.verify = 0#1 ∨ crcMatches Config.params.crc (rx16Word crc status rwEcho data) = true →
        (status = 0#5 → u.out.outOk = 1#1 ∧ u.out.outValue = data.setWidth 32) ∧
        (status ≠ 0#5 → u.out.outOk = 0#1 ∧ u.out.outInfo = .status status ∧
          u.out.outKind = kindCode (Config.params.statusError status).kind))) ∧
    (∀ crc wide, ∃ t u, exec (.rx22 crc wide) s = .next t ∧ exec .classify t = .next u ∧
      (s.inp.verify = 1#1 → crcMatches Config.params.crc (rx22Word crc wide) = false →
        u.out.outOk = 0#1 ∧ u.out.outKind = 3#4 ∧ u.out.outInfo = .localMismatch) ∧
      (s.inp.verify = 0#1 ∨ crcMatches Config.params.crc (rx22Word crc wide) = true →
        u.out.outOk = 1#1 ∧ u.out.outValue = wide.setWidth 32))

/-! ### Encoding -/

/-- R38, R45 to R48, R50, R28. Decoding the bytes an instruction is encoded in gives it back, for every
instruction and every value of every field. -/
def Obligations.DecodeInvertsEncode : Prop :=
  ∀ i : Instr, decodeBytes (encode i).1 (encode i).2 = .ok i

/-- R28, R37. Bytes that decode at a port are the very bytes the instruction is encoded in, at that port: no
bit of a word is dropped and no two words are one instruction. -/
def Obligations.EncodeInvertsDecode : Prop :=
  ∀ (port : Port) (bytes : List Byte) (i : Instr), decodeBytes port bytes = .ok i → encode i = (port, bytes)

/-- R50, R51. The selector codes: six name an operation each, 110 and 111 none; and a fetch of either is
refused by name, whatever the operands. -/
def Obligations.ReservedSelectorsAreRefused : Prop :=
  (∀ op : BitVec 3, (∃ i, decodeSelector op = .ok i) ↔ op ≠ 0b110#3 ∧ op ≠ 0b111#3) ∧
  ∀ (s : State) (op : BitVec 3) (operands : Operands) (override : Option Bit) (rest : List HostLine),
    s.program = .invoke op operands override :: rest → op = 0b110#3 ∨ op = 0b111#3 →
      step s = .refused (.reservedSelector op)

/-- R28, R38, R45 to R48, R50: words written out from the layouts, a selector and one word of each frame row,
decode to what they stand for. The bytes of a frame are in wire order (log 17), a selector stands in one byte
(log 16). -/
def Obligations.SampleWordsDecode : Prop :=
  decodeBytes .op [0b00000101#8] = .ok .classify ∧
  decodeBytes (.frameOut .read) [0b11001001#8, 0b00000000#8, 0b00000001#8, 0b00000100#8] =
    .ok (.txRead 0xC9#8 0b0000000#7 0#1 0x0104#16) ∧
  decodeBytes (.frameOut .write) [0b00111111#8, 0b00010011#8, 0b01010110#8, 0b01111000#8] =
    .ok (.txWrite 0x3F#8 0b0001001#7 1#1 0x5678#16) ∧
  decodeBytes .frameIn [0b01101001#8, 0b00000111#8, 0b00010010#8, 0b00110100#8] =
    .ok (.rx16 0x69#8 0b00011#5 1#1 0x1234#16) ∧
  decodeBytes .frameIn [0b10001111#8, 0b01101010#8, 0b10111100#8, 0b11011110#8] =
    .ok (.rx22 0x8F#8 0x2ABCDE#22) ∧
  decodeBytes .frameIn [0b11111111#8, 0b10000000#8, 0b00000001#8, 0b01010101#8] =
    .ok (.rxcrit 0xFF#8 1#14 0x55#8) ∧
  decodeBytes .frameIn [0b00010010#8, 0b11100000#8, 0b00000000#8, 0b00000001#8] =
    .ok (.rxrsvd 0x12#8 0x200001#22)

/-- R38, R39, R41, R65, R66. What the encoders build are well-formed transmit rows: the read frame of an address
is a well-formed `TX_READ`, the write frame of an address and a value a well-formed `TX_WRITE`. Conversely, where
the address fields are those of an address `a`, a well-formed `TX_READ` is the read frame of `a` and a well-formed
`TX_WRITE` the write frame of `a` and its low field. -/
def Obligations.EncodersBuildTheWellFormedTransmitRows : Prop :=
  ∀ P : Params,
    (∀ a, (decodeTransmit .read (encodeReadFrame P a)).wellFormed P = true) ∧
    (∀ a v, (decodeTransmit .write (encodeWriteFrame P a v)).wellFormed P = true) ∧
    (∀ crc rw a, (Instr.txRead crc (P.addrHi a) rw (P.rdLow a)).wellFormed P = true →
      txWord crc (P.addrHi a) rw (P.rdLow a) = encodeReadFrame P a) ∧
    (∀ crc rw low a, (Instr.txWrite crc (P.addrHi a) rw low).wellFormed P = true →
      txWord crc (P.addrHi a) rw low = encodeWriteFrame P a low)

/-! ### Laws of the checksum -/

/-- R62. Single-bit detection: within the family of R56 it holds if and only if `CRC_POLY ≠ 0x00`. -/
def Obligations.SingleBitDetectionIffPolyNonzero : Prop :=
  ∀ c : CrcParams,
    (∀ (f : Frame) (k : Nat), k < 24 → crcMatches c f = true → crcMatches c (f ^^^ (1#32 <<< k)) = false) ↔
    c.poly ≠ 0x00#8

/-- R7. The constraint on the machine's polynomial: it is never `0x00`, and every other byte is some
instance's. -/
def Obligations.PolynomialIsAnyByteButZero : Prop :=
  (∀ P : Params, P.crcPoly ≠ 0x00#8) ∧ ∀ b : Byte, b ≠ 0x00#8 → ∃ P : Params, P.crcPoly = b

/-- R63. Affinity, for every member of the family; payloads that share a checksum form a coset (whether `p` and
`q` share one depends on `p xor q` alone); the checksum is onto where `CRC_POLY[0] = 1` (R63's own remark from
general knowledge, G4); and flipping a bit of the CRC field of a verifying frame always makes verification
fail. -/
def Obligations.ChecksumIsAffine : Prop :=
  ∀ c : CrcParams,
    (∀ p q : Payload, crc8 c (p ^^^ q) = crc8 c p ^^^ crc8 c q ^^^ crc8 c 0#24) ∧
    (∀ p q : Payload, crc8 c p = crc8 c q ↔ crc8 c (p ^^^ q) = crc8 c 0#24) ∧
    (c.poly.getLsbD 0 = true → ∀ b : Byte, ∃ p : Payload, crc8 c p = b) ∧
    (∀ (f : Frame) (k : Nat), 24 ≤ k → k < 32 → crcMatches c f = true →
      crcMatches c (f ^^^ (1#32 <<< k)) = false)

/-- R64. No checksum of the family is injective; and where it is onto, so wherever `CRC_POLY[0] = 1` (G4), every
value is the checksum of exactly `2^16` payloads. -/
def Obligations.ChecksumNeverIdentifiesItsPayload : Prop :=
  ∀ c : CrcParams,
    ¬ Function.Injective (crc8 c) ∧
    (Function.Surjective (crc8 c) → ∀ b : Byte, Nat.card { p : Payload // crc8 c p = b } = 2 ^ 16) ∧
    (c.poly.getLsbD 0 = true → ∀ b : Byte, Nat.card { p : Payload // crc8 c p = b } = 2 ^ 16)

/-- R59. The bit-serial shift register computes the checksum of R56 and R57 where neither reflection is on. -/
def Obligations.SerialRegisterComputesTheChecksum : Prop :=
  ∀ (c : CrcParams) (p : Payload), c.refIn = false → c.refOut = false → crc8Serial c p = crc8 c p

/-- R59. The table-driven realisation computes the checksum of R56 and R57 where neither reflection is on. -/
def Obligations.TableComputesTheChecksum : Prop :=
  ∀ (c : CrcParams) (p : Payload), c.refIn = false → c.refOut = false → crc8Table c p = crc8 c p

/-! ### Laws of the encoder -/

/-- R61. Encoder frames verify, for every address and value and all parameters; and on the machine, the frame
an encoder leaves on `frame_out`, presented on `frame_in`, makes `VERIFY_CRC` answer 1. -/
def Obligations.EncodedFramesVerify : Prop :=
  (∀ (P : Params) (a : Addr) (v : BitVec 16),
    crcMatches P.crc (encodeWriteFrame P a v) = true ∧ crcMatches P.crc (encodeReadFrame P a) = true) ∧
  ∀ (s : State) (i : Instr), i = .encodeRead ∨ i = .encodeWrite →
    ∃ t u, exec i s = .next t ∧
      exec .verifyCrc { t with inp := { t.inp with frameIn := t.out.frameOut } } = .next u ∧ u.out.crcOk = 1#1

/-- R39, R67. The transmit CRC field always holds the checksum of the frame's low 24 bits, whatever the
Device's CRC-enabled flag and the `verify` input say. -/
def Obligations.TransmitCrcFieldIsAlwaysFilled : Prop :=
  ∀ (s : State) (enabled : Bool) (verify : Bit) (i : Instr), i = .encodeRead ∨ i = .encodeWrite →
    ∃ t, exec i { s with
        device := { s.device with crcEnabled := enabled }, inp := { s.inp with verify := verify } } = .next t ∧
      t.out.frameOut.extractLsb' 24 8 = crc8 Config.params.crc (t.out.frameOut.extractLsb' 0 24)

/-- R68. What a transmit frame determines: the value of a write frame, its kind by bit 16 (whatever the two
addresses are), `ADDR_HI(address)`;
the address of a read frame exactly where the pair (`ADDR_HI`, `RD_LOW`) is injective, so under REF; that of a
write frame exactly where `ADDR_HI` is injective on the addresses in use, which under REF it is not on all; the
low 24 bits depend on no `CRC_*` parameter, and the top byte on nothing but those and the low 24 bits. -/
def Obligations.TransmitFrameDeterminesItsRequest : Prop :=
  (∀ (P : Params) (a b : Addr) (v : BitVec 16),
    (encodeWriteFrame P a v).extractLsb' 0 16 = v ∧
    (encodeWriteFrame P a v).extractLsb' 16 1 ≠ (encodeReadFrame P b).extractLsb' 16 1 ∧
    (encodeWriteFrame P a v).extractLsb' 17 7 = P.addrHi a ∧ (encodeReadFrame P a).extractLsb' 17 7 = P.addrHi a) ∧
  (∀ P : Params,
    Function.Injective (encodeReadFrame P) ↔ Function.Injective fun a => (P.addrHi a, P.rdLow a)) ∧
  Function.Injective (encodeReadFrame Params.ref) ∧
  (∀ (P : Params) (v : BitVec 16) (inUse : Set Addr),
    Set.InjOn (fun a => encodeWriteFrame P a v) inUse ↔ Set.InjOn P.addrHi inUse) ∧
  ¬ Function.Injective Params.ref.addrHi ∧
  (∀ (P Q : Params) (a : Addr) (v : BitVec 16),
    P.addrHi = Q.addrHi → P.rdLow = Q.rdLow → P.rwWrite = Q.rwWrite →
    (encodeWriteFrame P a v).extractLsb' 0 24 = (encodeWriteFrame Q a v).extractLsb' 0 24 ∧
    (encodeReadFrame P a).extractLsb' 0 24 = (encodeReadFrame Q a).extractLsb' 0 24) ∧
  (∀ (P Q : Params) (f g : Frame), P.crc = Q.crc →
    (∃ a v, f = encodeReadFrame P a ∨ f = encodeWriteFrame P a v) →
    (∃ a v, g = encodeReadFrame Q a ∨ g = encodeWriteFrame Q a v) →
    f.extractLsb' 0 24 = g.extractLsb' 0 24 → f.extractLsb' 24 8 = g.extractLsb' 24 8)

/-! ### Laws of the decoder and the classifier -/

/-- R77. `DECODE` reads `f[31:24]` only as the `crc` field, a critical-fault reply's `f[7:0]` alone and nothing
of a reserved one; a 16-bit or 22-bit reply is recovered from its view; and the write frame of `a`, `v` with
`ADDR_HI(a)[6:5] = 00` decodes to a 16-bit reply with data `v`, rw-echo `RW_WRITE` and status
`ADDR_HI(a)[4:0]`. -/
def Obligations.DecodeReadsItsLayoutAndNoMore : Prop :=
  ∀ P : Params,
    (∀ (f : Frame) (crc : Byte),
      decodeReply P (joinFrame crc (payloadField f)) =
        match decodeReply P f with
        | .reply16 status statusKind rwEcho data _ => .reply16 status statusKind rwEcho data crc
        | .reply22 wide _ => .reply22 wide crc
        | .critical health => .critical health
        | .reserved => .reserved) ∧
    (∀ f g : Frame, f.extractLsb' 22 2 = 0b10#2 → g.extractLsb' 22 2 = 0b10#2 →
      f.extractLsb' 0 8 = g.extractLsb' 0 8 → decodeReply P f = decodeReply P g) ∧
    (∀ f g : Frame, f.extractLsb' 22 2 = 0b11#2 → g.extractLsb' 22 2 = 0b11#2 →
      decodeReply P f = decodeReply P g) ∧
    (∀ (f : Frame) status statusKind rwEcho data crc,
      decodeReply P f = .reply16 status statusKind rwEcho data crc → f = rx16Word crc status rwEcho data) ∧
    (∀ (f : Frame) wide crc, decodeReply P f = .reply22 wide crc → f = rx22Word crc wide) ∧
    (∀ (a : Addr) (v : BitVec 16), (P.addrHi a).extractLsb' 5 2 = 0b00#2 →
      decodeReply P (encodeWriteFrame P a v) =
        .reply16 ((P.addrHi a).extractLsb' 0 5) (P.statusKind ((P.addrHi a).extractLsb' 0 5)) P.rwWrite v
          (crcField (encodeWriteFrame P a v)))

/-- R53. The round trip of encoder output through the decoder, with its conditions: how a transmit word reads as
a receive word, which view the write frame of `a`, `v` decodes to and what `CLASSIFY` makes of it, by the bits of
`ADDR_HI(a)`. -/
def Obligations.RoundTripHoldsExactlyUnderItsConditions : Prop :=
  (∀ (crc : Byte) (addrHi : BitVec 7) (rw : Bit) (low : BitVec 16),
    modeField (txWord crc addrHi rw low) = addrHi.extractLsb' 5 2 ∧
    statusField (txWord crc addrHi rw low) = addrHi.extractLsb' 0 5 ∧
    crcField (txWord crc addrHi rw low) = crc ∧ rwEchoField (txWord crc addrHi rw low) = rw ∧
    dataField (txWord crc addrHi rw low) = low) ∧
  (∀ (P : Params) (a : Addr) (v : BitVec 16),
    crcMatches P.crc (encodeWriteFrame P a v) = true ∧ crcMatches P.crc (encodeReadFrame P a) = true ∧
    ((∃ status statusKind rwEcho crc,
        decodeReply P (encodeWriteFrame P a v) = .reply16 status statusKind rwEcho v crc) ↔
      (P.addrHi a).extractLsb' 5 2 = 0b00#2) ∧
    ((∃ wide crc, decodeReply P (encodeWriteFrame P a v) = .reply22 wide crc ∧ wide.extractLsb' 0 16 = v) ↔
      (P.addrHi a).extractLsb' 5 2 = 0b01#2) ∧
    ((P.addrHi a).getLsbD 6 = true →
      (∃ health, decodeReply P (encodeWriteFrame P a v) = .critical health) ∨
      decodeReply P (encodeWriteFrame P a v) = .reserved) ∧
    (∀ verify : Bit,
      (P.addrHi a = 0#7 → classifyReply P (encodeWriteFrame P a v) verify = .ok (v.setWidth 32)) ∧
      ((P.addrHi a).extractLsb' 5 2 = 0b00#2 → (P.addrHi a).extractLsb' 0 5 ≠ 0#5 →
        ∃ k, P.statusKind ((P.addrHi a).extractLsb' 0 5) = some k ∧
          classifyReply P (encodeWriteFrame P a v) verify = .err k (.status ((P.addrHi a).extractLsb' 0 5))) ∧
      ((P.addrHi a).extractLsb' 5 2 = 0b01#2 →
        classifyReply P (encodeWriteFrame P a v) verify =
          .ok (((P.addrHi a).extractLsb' 0 5 ++ P.rwWrite ++ v).setWidth 32) ∧
        (classifyReply P (encodeWriteFrame P a v) verify = .ok (v.setWidth 32) ↔
          (P.addrHi a).extractLsb' 0 5 = 0#5 ∧ P.rwWrite = 0#1)) ∧
      ((P.addrHi a).getLsbD 6 = true →
        ∃ k info, classifyReply P (encodeWriteFrame P a v) verify = .err k info))) ∧
  (∀ a : Addr, (Params.ref.addrHi a).extractLsb' 5 2 = a.extractLsb' 14 2) ∧
  (∀ (a : Addr) (v : BitVec 16), a.toNat < 0x4000 →
    ∃ status statusKind rwEcho crc,
      decodeReply Params.ref (encodeWriteFrame Params.ref a v) = .reply16 status statusKind rwEcho v crc)

/-- R79. A frame that fails verification is never data, and its status is not reported either; with
`verify = 0` the CRC field makes no difference to the outcome. -/
def Obligations.FailedVerificationIsNeverData : Prop :=
  ∀ (P : Params) (f : Frame), f.extractLsb' 22 2 = 0b00#2 ∨ f.extractLsb' 22 2 = 0b01#2 →
    (crcMatches P.crc f = false → classifyReply P f 1#1 = .err .crcError .localMismatch) ∧
    (∀ crc : Byte, classifyReply P (joinFrame crc (payloadField f)) 0#1 = classifyReply P f 0#1)

/-- R80, R74. A non-zero status never yields `Ok`, whatever `verify` is and even where the CRC is right; where
the CRC test does not fail the kind is `STATUS_KIND(status)` and the info the status; and a `CRCError` so
reported has the cause `reported_by_chip`, told apart from `local_mismatch`. -/
def Obligations.NonzeroStatusIsNeverData : Prop :=
  ∀ (P : Params) (f : Frame) (verify : Bit), f.extractLsb' 22 2 = 0b00#2 → f.extractLsb' 17 5 ≠ 0#5 →
    (∀ value, classifyReply P f verify ≠ .ok value) ∧
    (verify = 0#1 ∨ crcMatches P.crc f = true →
      ∃ k, P.statusKind (f.extractLsb' 17 5) = some k ∧
        classifyReply P f verify = .err k (.status (f.extractLsb' 17 5)) ∧
        (k = .crcError →
          (classifyReply P f verify).crcCause = some (.reportedByChip (f.extractLsb' 17 5)))) ∧
    (verify = 1#1 → crcMatches P.crc f = false →
      (classifyReply P f verify).crcCause = some .localMismatch)

/-- R81. For every frame with `[23:22] = 10` and either `verify`, `CLASSIFY` is `HardwareError` with `f[7:0]`;
the outcome is the same for every `f[31:24]` and every `f[21:8]`; and on the machine so are the ports. -/
def Obligations.CriticalReplyIsAlwaysHardwareError : Prop :=
  (∀ (P : Params) (f : Frame) (verify : Bit), f.extractLsb' 22 2 = 0b10#2 →
    classifyReply P f verify = .err .hardwareError (.health (f.extractLsb' 0 8))) ∧
  (∀ (P : Params) (undef undef' : Byte) (ignored ignored' : BitVec 14) (health : Byte) (verify verify' : Bit),
    classifyReply P (rxcritWord undef ignored health) verify =
      classifyReply P (rxcritWord undef' ignored' health) verify') ∧
  ∀ s : State, s.inp.frameIn.extractLsb' 22 2 = 0b10#2 →
    ∃ t, exec .classify s = .next t ∧ t.out.outOk = 0#1 ∧ t.out.outKind = 1#4 ∧
      t.out.viewKind = 2#2 ∧ t.out.viewHealth = s.inp.frameIn.extractLsb' 0 8

/-- R76. A reply of mode 3 decodes to the reserved view and classifies to `RESERVED_MODE_KIND` without info,
for either `verify`, whatever the other bits are; on the machine `out_ok` is 0. -/
def Obligations.ReservedReplyIsNeverData : Prop :=
  (∀ (P : Params) (f : Frame) (verify : Bit), f.extractLsb' 22 2 = 0b11#2 →
    decodeReply P f = .reserved ∧ classifyReply P f verify = .err P.reservedModeKind .none) ∧
  ∀ s : State, s.inp.frameIn.extractLsb' 22 2 = 0b11#2 →
    ∃ t, exec .classify s = .next t ∧ t.out.outOk = 0#1 ∧ t.out.viewKind = 3#2 ∧
      t.out.outKind = kindCode Config.params.reservedModeKind

/-- R85. The causes of each error outcome, exactly, read from its info; and a 22-bit reply gives only
`CRCError` with `local_mismatch`, or `Ok`. -/
def Obligations.ErrorOutcomesHaveExactlyTheirCauses : Prop :=
  ∀ (P : Params) (f : Frame) (verify : Bit),
    (∀ k h, classifyReply P f verify = .err k (.health h) ↔
      k = .hardwareError ∧ f.extractLsb' 22 2 = 0b10#2 ∧ h = f.extractLsb' 0 8) ∧
    (∀ k, classifyReply P f verify = .err k .none ↔ k = P.reservedModeKind ∧ f.extractLsb' 22 2 = 0b11#2) ∧
    (∀ k, classifyReply P f verify = .err k .localMismatch ↔
      k = .crcError ∧ (f.extractLsb' 22 2 = 0b00#2 ∨ f.extractLsb' 22 2 = 0b01#2) ∧ verify = 1#1 ∧
        f.extractLsb' 24 8 ≠ crc8 P.crc (f.extractLsb' 0 24)) ∧
    (∀ k status, classifyReply P f verify = .err k (.status status) ↔
      f.extractLsb' 22 2 = 0b00#2 ∧ status = f.extractLsb' 17 5 ∧ P.statusKind status = some k ∧
        (verify = 0#1 ∨ f.extractLsb' 24 8 = crc8 P.crc (f.extractLsb' 0 24))) ∧
    (f.extractLsb' 22 2 = 0b01#2 →
      classifyReply P f verify = .err .crcError .localMismatch ∨ ∃ value, classifyReply P f verify = .ok value)

/-- R82. One flipped bit `k` of a verifying reply of mode 0 or 1. With `verify = 1` it is never `Ok`, and the
kind is `CRCError` but for bit 23, where the new mode is critical-fault or reserved. With `verify = 0` the damaged
frame is interpreted: bits 24 to 31 change nothing; bit 23 gives the same error; bit 22 gives the outcome of the
other layout; bits 0 to 21 leave the mode, and give the damaged wide data in mode 1 and the damaged status or data
in mode 0, where bit 16, the rw-echo, changes nothing. (So R82's words for 0 to 21, "`Ok` with wrong data, or a
different status outcome", hold but for bit 16 of a 16-bit reply and, with a non-zero status, its bits 0 to 15.)
The converse damage yields `Ok` only if the undefined byte equals the checksum. -/
def Obligations.OneFlippedBitIsNeverData : Prop :=
  (∀ (P : Params) (f : Frame) (k : Nat), f.extractLsb' 22 2 = 0b00#2 ∨ f.extractLsb' 22 2 = 0b01#2 →
    crcMatches P.crc f = true → k < 32 →
    (∀ value, classifyReply P (f ^^^ (1#32 <<< k)) 1#1 ≠ .ok value) ∧
    (k ≠ 23 → classifyReply P (f ^^^ (1#32 <<< k)) 1#1 = .err .crcError .localMismatch) ∧
    (k ≤ 21 → (f ^^^ (1#32 <<< k)).extractLsb' 22 2 = f.extractLsb' 22 2) ∧
    (k ≤ 21 → f.extractLsb' 22 2 = 0b01#2 → classifyReply P (f ^^^ (1#32 <<< k)) 0#1 =
      .ok ((f.extractLsb' 0 22 ^^^ (1#22 <<< k)).setWidth 32)) ∧
    (k ≤ 15 → f.extractLsb' 22 2 = 0b00#2 → classifyReply P (f ^^^ (1#32 <<< k)) 0#1 =
      if f.extractLsb' 17 5 = 0#5 then .ok ((f.extractLsb' 0 16 ^^^ (1#16 <<< k)).setWidth 32)
      else classifyReply P f 0#1) ∧
    (k = 16 → f.extractLsb' 22 2 = 0b00#2 →
      classifyReply P (f ^^^ (1#32 <<< k)) 0#1 = classifyReply P f 0#1) ∧
    (17 ≤ k → k ≤ 21 → f.extractLsb' 22 2 = 0b00#2 → classifyReply P (f ^^^ (1#32 <<< k)) 0#1 =
      if f.extractLsb' 17 5 = 1#5 <<< (k - 17) then .ok ((f.extractLsb' 0 16).setWidth 32)
      else .err (P.statusError (f.extractLsb' 17 5 ^^^ (1#5 <<< (k - 17)))).kind
        (.status (f.extractLsb' 17 5 ^^^ (1#5 <<< (k - 17))))) ∧
    (k = 22 → (f ^^^ (1#32 <<< k)).extractLsb' 22 2 = f.extractLsb' 22 2 ^^^ 0b01#2) ∧
    (k = 22 → f.extractLsb' 22 2 = 0b00#2 →
      classifyReply P (f ^^^ (1#32 <<< k)) 0#1 = .ok ((f.extractLsb' 0 22).setWidth 32)) ∧
    (k = 22 → f.extractLsb' 22 2 = 0b01#2 → classifyReply P (f ^^^ (1#32 <<< k)) 0#1 =
      if f.extractLsb' 17 5 = 0#5 then .ok ((f.extractLsb' 0 16).setWidth 32)
      else .err (P.statusError (f.extractLsb' 17 5)).kind (.status (f.extractLsb' 17 5))) ∧
    (k = 23 → f.extractLsb' 22 2 = 0b00#2 → ∀ verify,
      classifyReply P (f ^^^ (1#32 <<< k)) verify = .err .hardwareError (.health (f.extractLsb' 0 8))) ∧
    (k = 23 → f.extractLsb' 22 2 = 0b01#2 → ∀ verify,
      classifyReply P (f ^^^ (1#32 <<< k)) verify = .err P.reservedModeKind .none) ∧
    (24 ≤ k → (f ^^^ (1#32 <<< k)).extractLsb' 22 2 = f.extractLsb' 22 2 ∧
      classifyReply P (f ^^^ (1#32 <<< k)) 0#1 = classifyReply P f 0#1)) ∧
  (∀ (P : Params) (f : Frame) value, f.extractLsb' 22 2 = 0b10#2 →
    classifyReply P (f ^^^ (1#32 <<< 23)) 1#1 = .ok value →
    f.extractLsb' 24 8 = crc8 P.crc ((f ^^^ (1#32 <<< 23)).extractLsb' 0 24))

/-- R49. The `Ok` value is the reply's data field zero-extended: bits 31:16 are 0 after a 16-bit reply, bits
31:22 after a 22-bit reply, and mode, status, rw-echo and CRC bits are no part of it. -/
def Obligations.OkValueIsZeroExtendedData : Prop :=
  ∀ (P : Params) (f : Frame) (verify : Bit) value, classifyReply P f verify = .ok value →
    (f.extractLsb' 22 2 = 0b00#2 ∧ value.extractLsb' 0 16 = f.extractLsb' 0 16 ∧ value.extractLsb' 16 16 = 0#16) ∨
    (f.extractLsb' 22 2 = 0b01#2 ∧ value.extractLsb' 0 22 = f.extractLsb' 0 22 ∧ value.extractLsb' 22 10 = 0#10)

/-- R84. The codes of the kinds: positions in the document's list, 0 for none, all different; and the kind
ports drive no code of 12 to 15: after `CLASSIFY` with `out_ok = 0`, `out_kind` is 1 to 11, and after `DECODE`
of a 16-bit reply `view_status_kind` is 0 exactly for status 0 and otherwise one of 3, 8, 9, 10. -/
def Obligations.KindPortsCarryTheListedCodes : Prop :=
  [ErrorKind.hardwareError, .timeoutError, .crcError, .wrongDeviceId, .invalidChannel, .invalidParameter, .wrongMode,
    .spiFrameError, .writeToReadOnly, .registerError, .notInitialized].map (fun k => (kindCode k).toNat) =
    [1, 2, 3, 4, 5, 6, 7, 8, 9, 10, 11] ∧
  optionKindCode none = 0#4 ∧
  (∀ s : State, ∃ t, exec .classify s = .next t ∧
    (t.out.outOk = 0#1 → 1 ≤ t.out.outKind.toNat ∧ t.out.outKind.toNat ≤ 11)) ∧
  (∀ s : State, s.inp.frameIn.extractLsb' 22 2 = 0b00#2 → ∃ t, exec .decode s = .next t ∧
    (t.out.viewStatusKind = 0#4 ↔ s.inp.frameIn.extractLsb' 17 5 = 0#5) ∧
    (t.out.viewStatusKind = 0#4 ∨ t.out.viewStatusKind = 3#4 ∨ t.out.viewStatusKind = 8#4 ∨
      t.out.viewStatusKind = 9#4 ∨ t.out.viewStatusKind = 10#4))

/-- R107, R110, R111. `CLASSIFY` says of a frame what a careful host makes of `DECODE` and `VERIFY_CRC`: `Ok`
exactly where the mode has data, the status of a 16-bit reply is 0 and the frame verifies if `verify = 1`; the
value is then `view_data`, zero-extended; and the modes agree. -/
def Obligations.ClassifyAgreesWithDecodeAndVerify : Prop :=
  ∀ s : State, ∃ t u v,
    exec .classify s = .next t ∧ exec .decode s = .next u ∧ exec .verifyCrc s = .next v ∧
    t.out.viewKind = u.out.viewKind ∧
    (t.out.outOk = 1#1 ↔
      (u.out.viewKind = 0#2 ∧ u.out.viewStatus = 0#5 ∨ u.out.viewKind = 1#2) ∧
      (s.inp.verify = 0#1 ∨ v.out.crcOk = 1#1)) ∧
    (t.out.outOk = 1#1 → t.out.outValue = u.out.viewData.setWidth 32)

/-! ### Whole-machine rules -/

/-- R15, R16. Two invocations of an operation with equal operands give equal results on every port valid for
it, whatever the other input ports, the exchange, the Device's bits, the program or the draws are. -/
def Obligations.EqualOperandsGiveEqualResults : Prop :=
  ∀ (i : Instr) (s s' t t' : State), operandsAgree i s.inp s'.inp →
    exec i s = .next t → exec i s' = .next t' → resultsAgree i t.out t'.out

/-- R19, R22, R94. No row of the table reads or writes the Device-owned bits: an instruction does the same
whatever they are, in `Config` or `Mission`, ready or not, and leaves them and the program as they were. -/
def Obligations.DeviceBitsReachNoInstruction : Prop :=
  (∀ (i : Instr) (s t : State), exec i s = .next t → t.device = s.device ∧ t.program = s.program) ∧
  ∀ (i : Instr) (s : State) (d : Device),
    (∀ t, exec i s = .next t → exec i { s with device := d } = .next { t with device := d }) ∧
    (∀ r, exec i s = .refused r → exec i { s with device := d } = .refused r)

/-- R52, R85, R108. No row is ever refused but a transmit frame while an exchange is in flight: the operations
and the receive rows have no illegal operand and no failure. -/
def Obligations.OnlyASecondTransmitIsEverRefused : Prop :=
  ∀ (i : Instr) (s : State) (r : Refusal), exec i s = .refused r →
    r = .exchangeInFlight ∧ s.xfer.inFlight ≠ none ∧
    ∃ crc addrHi rw low, i = .txRead crc addrHi rw low ∨ i = .txWrite crc addrHi rw low

/-- R50, R54, R106, log 2. A step runs the decoded instruction: an invocation whose selector byte decodes, its
input ports driven (`verify` as R20 says, and `frame_in` with the given frame or the reply in hand), or a
transmit or receive frame whose bytes decode; the line is taken off the program. -/
def Obligations.StepRunsTheDecodedInstruction : Prop :=
  ∀ (s : State) (rest : List HostLine) (i : Instr),
    (∀ (op : BitVec 3) (operands : Operands) (override : Option Bit) (f : Frame),
      s.program = .invoke op operands override :: rest → decodeBytes .op [op.setWidth 8] = .ok i →
      (operands.frameIn = .given f ∨
        (operands.frameIn = .reply ∧ s.xfer.inFlight = none ∧ s.xfer.result = some (.reply f))) →
      step s = exec i { s with
        program := rest
        inp :=
          { op := op, address := operands.address, value := operands.value, payload := operands.payload
            frameIn := f, verify := override.getD (BitVec.ofBool s.device.crcEnabled) } }) ∧
    (∀ kind tx, s.program = .transmit kind tx :: rest →
      decodeBytes (.frameOut kind) (frameBytes tx) = .ok i → step s = exec i { s with program := rest }) ∧
    (∀ rx, s.program = .receive rx :: rest →
      decodeBytes .frameIn (frameBytes rx) = .ok i → step s = exec i { s with program := rest })

/-- R32, U13, log 11. Where a line (log 2) takes its frame from the last exchange and there is no reply in hand
(that exchange returned an error, none has run, or one is under way), invoking `VERIFY_CRC`, `DECODE` or
`CLASSIFY` is refused by name; `CRC`, `ENCODE_READ` and `ENCODE_WRITE`, which do not read `frame_in`, run on the
line's operands all the same, that port left as it was. -/
def Obligations.NoReplyFrameNoInvocation : Prop :=
  ∀ (s : State) (op : BitVec 3) (operands : Operands) (override : Option Bit) (rest : List HostLine),
    s.program = .invoke op operands override :: rest → operands.frameIn = .reply →
    (∃ e, s.xfer.result = some (.error e)) ∨ s.xfer.result = none ∨ (∃ tx, s.xfer.inFlight = some tx) →
    (op = 0b001#3 ∨ op = 0b100#3 ∨ op = 0b101#3 → step s = .refused .noReplyFrame) ∧
    (∀ i, op = 0b000#3 ∧ i = .crc ∨ op = 0b010#3 ∧ i = .encodeRead ∨ op = 0b011#3 ∧ i = .encodeWrite →
      step s = exec i { s with
        program := rest
        inp :=
          { op := op, address := operands.address, value := operands.value, payload := operands.payload
            frameIn := s.inp.frameIn, verify := override.getD (BitVec.ofBool s.device.crcEnabled) } })

/-- R20. What `verify` is for the operation a step runs: the override where one is given, else the Device's
CRC-enabled flag. -/
def Obligations.VerifyIsOverrideOrDeviceFlag : Prop :=
  ∀ (s t : State) (op : BitVec 3) (operands : Operands) (override : Option Bit) (rest : List HostLine),
    s.program = .invoke op operands override :: rest → step s = .next t →
      (∀ v, override = some v → t.inp.verify = v) ∧
      (override = none → t.inp.verify = if s.device.crcEnabled then 1#1 else 0#1)

/-- R106, R35. Lines run top to bottom, one a step: a step that answers leaves the program without its first
line, whatever the line; and with none left the block waits: every step answers, and only output ports change. -/
def Obligations.ProgramRunsInOrder : Prop :=
  (∀ s t : State, step s = .next t → t.program = s.program.tail) ∧
  ∀ s : State, s.program = [] → ∃ t, step s = .next t ∧ s.Kept t

/-- R21, R32, R86, R91, log 2, log 13. The lines that are no instruction: a transport error ends the exchange
under way without a reply frame (a failed exchange counts as the previous one, log 12), and with none under way
leaves the exchange boundary as it was (log 10); a change of the Device's bits sets those bits. The inputs are
kept, the output ports are the current draw (log 3), and nothing else of the state changes. -/
def Obligations.HostEventsChangeOnlyTheirOwn : Prop :=
  ∀ (s : State) (rest : List HostLine),
    (∀ e tx, s.program = .transportError e :: rest → s.xfer.inFlight = some tx →
      step s = .next { s with
        xfer := { inFlight := none, previous := some tx, result := some (.error e), answers := none }
        out := Config.drawnPorts s.draws, draws := s.draws + 1, program := rest }) ∧
    (∀ e, s.program = .transportError e :: rest → s.xfer.inFlight = none →
      step s = .next { s with out := Config.drawnPorts s.draws, draws := s.draws + 1, program := rest }) ∧
    (∀ d, s.program = .device d :: rest →
      step s = .next { s with
        device := d, out := Config.drawnPorts s.draws, draws := s.draws + 1, program := rest })

/-- R35, R108. One frame in flight and no cancellation: while an exchange is under way a step either leaves it
under way, with the same frame, or ends it with a reply or an error, recording that frame. -/
def Obligations.ExchangeRunsToCompletion : Prop :=
  ∀ (s t : State) (tx : Frame), s.xfer.inFlight = some tx → step s = .next t →
    t.xfer = s.xfer ∨ (t.xfer.inFlight = none ∧ t.xfer.previous = some tx ∧ t.xfer.result ≠ none)

/-- R29, R33. An exchange end to end: from a state with none under way whose program sends a frame, takes a
reply and classifies the reply in hand (log 2), three steps answer, and `CLASSIFY` has judged that very reply: its
outcome stands on the ports (the info in `outInfo`, log 8). The pairing is log 12. -/
def Obligations.ExchangeDeliversItsReply : Prop :=
  ∀ (s : State) (kind : TxKind) (tx rx : Frame) (operands : Operands) (verify : Bit) (rest : List HostLine),
    s.xfer.inFlight = none → operands.frameIn = .reply →
    s.program = .transmit kind tx :: .receive rx :: .invoke 0b101#3 operands (some verify) :: rest →
    ∃ t, Sys2Proof.core.run 3 s = .next t ∧ t.program = rest ∧ t.inp.frameIn = rx ∧
      t.xfer.previous = some tx ∧ t.xfer.result = some (.reply rx) ∧
      (Config.replyPairing = .sameExchange → t.xfer.answers = some tx) ∧
      (Config.replyPairing = .nextExchange → t.xfer.answers = s.xfer.previous) ∧
      (∀ value, classifyReply Config.params rx verify = .ok value → t.out.outOk = 1#1 ∧ t.out.outValue = value) ∧
      (∀ kind info, classifyReply Config.params rx verify = .err kind info →
        t.out.outOk = 0#1 ∧ t.out.outKind = kindCode kind ∧ t.out.outInfo = info)

/-- R32, R33. The exchange boundary stays coherent: every step keeps the invariant, from every state that has
it. -/
def Obligations.StepKeepsTheExchangeCoherent : Prop :=
  ∀ s t : State, s.Inv → step s = .next t → t.Inv

/-- The invariant holds right after reset (log 18). -/
def Obligations.ResetIsCoherent : Prop := State.reset.Inv

/-- R24. After reset: the CRC-enabled flag is 0, the mode is `Config`, the Device is not ready. The empty
program, the idle exchange with nothing recorded and the zero input ports are the model's choice (log 2, log 18,
log 4), and the output ports are the free value of draw 0 (log 3). -/
def Obligations.ResetLeavesTheStatedValues : Prop :=
  State.reset.device = { crcEnabled := false, mode := .config, ready := false } ∧
  State.reset.program = [] ∧
  State.reset.xfer = { inFlight := none, previous := none, result := none, answers := none } ∧
  State.reset.inp =
    { op := 0#3, address := 0#16, value := 0#16, payload := 0#24, frameIn := 0#32, verify := 0#1 } ∧
  State.reset.out = Config.drawnPorts 0

/-- R27, R28. Wire order: the `i`-th bit shifted is bit `31 - i`, so bit 31 first; shifting the bits in again
gives the frame; its bytes from the top are `[31:24]`, `[23:16]`, `[15:8]`, `[7:0]` and make it again. -/
def Obligations.FramesTravelMostSignificantBitFirst : Prop :=
  ∀ f : Frame,
    (wireBits f).length = 32 ∧ (∀ i, i < 32 → (wireBits f)[i]? = some (f.getLsbD (31 - i))) ∧
    ofWireBits (wireBits f) = f ∧
    ∃ b3 b2 b1 b0, frameBytes f = [b3, b2, b1, b0] ∧ ofFrameBytes b3 b2 b1 b0 = f ∧
      b3 = crcField f ∧ b2 = payloadByte (payloadField f) 2 ∧ b1 = payloadByte (payloadField f) 1 ∧
      b0 = payloadByte (payloadField f) 0

/-- R30. `transfer_many` is the sequential application of exchanges, in index order. From a state with none under
way whose program is its lines (an exchange is two lines, log 2) and then `rest`: after `2(i + 1)` steps exchange
`i` has completed, its transmit frame is the last one sent, its result is recorded and, if it is a reply, stands on
`frame_in`, and the lines left are those of the later exchanges; so after all of them `rest` is left. The result of
the call is `Ok` exactly where every exchange returned a reply, and else the first error (log 20). -/
def Obligations.TransferManyIsSequential : Prop :=
  (∀ (s : State) (xs : List Exchange) (rest : List HostLine), s.xfer.inFlight = none →
    s.program = transferMany xs ++ rest →
    (∃ t, Sys2Proof.core.run (2 * xs.length) s = .next t ∧ t.program = rest ∧ t.xfer.inFlight = none) ∧
    ∀ i x, xs[i]? = some x → ∃ t, Sys2Proof.core.run (2 * (i + 1)) s = .next t ∧
      t.program = transferMany (xs.drop (i + 1)) ++ rest ∧ t.xfer.inFlight = none ∧
      t.xfer.previous = some x.tx ∧ t.xfer.result = some x.result ∧
      (∀ rx, x.result = .reply rx → t.inp.frameIn = rx)) ∧
  (∀ xs : List Exchange, transferManyResult xs = none ↔ ∀ x ∈ xs, ∃ rx, x.result = .reply rx) ∧
  (∀ (before after : List Exchange) (x : Exchange) (e : TransportError),
    (∀ y ∈ before, ∃ rx, y.result = .reply rx) → x.result = .error e →
    transferManyResult (before ++ x :: after) = some e)
end

