-- ==== Sys2Proof/Laws/Fields.lean ====
section
/-! SUPPORT. The fields of an assembled word and the reassembly of a word from its fields. Every other file
cites these and unfolds no slice. -/

namespace Sys2Proof.Machine

/-! ### Bits of assembled words -/

theorem getLsbD_joinFrame (c : Byte) (p : Payload) (i : Nat) :
    (joinFrame c p).getLsbD i = if i < 24 then p.getLsbD i else c.getLsbD (i - 24) := by
  exact BitVec.getLsbD_append

theorem getLsbD_txPayload (a : BitVec 7) (rw : Bit) (l : BitVec 16) (i : Nat) :
    (txPayload a rw l).getLsbD i =
      if i < 16 then l.getLsbD i else if i - 16 < 1 then rw.getLsbD (i - 16) else a.getLsbD (i - 16 - 1) := by
  have h : (txPayload a rw l).getLsbD i = (a ++ rw ++ l).getLsbD i := rfl
  rw [h, BitVec.getLsbD_append, BitVec.getLsbD_append]

theorem getLsbD_rx16Payload (s : BitVec 5) (e : Bit) (d : BitVec 16) (i : Nat) :
    (show Payload from 0b00#2 ++ s ++ e ++ d).getLsbD i =
      if i < 16 then d.getLsbD i
      else if i - 16 < 1 then e.getLsbD (i - 16)
      else if i - 16 - 1 < 5 then s.getLsbD (i - 16 - 1) else (0b00#2).getLsbD (i - 16 - 1 - 5) := by
  have h : (show Payload from 0b00#2 ++ s ++ e ++ d).getLsbD i = (0b00#2 ++ s ++ e ++ d).getLsbD i := rfl
  rw [h, BitVec.getLsbD_append, BitVec.getLsbD_append, BitVec.getLsbD_append]

theorem getLsbD_rx22Payload (m : BitVec 2) (w : BitVec 22) (i : Nat) :
    (show Payload from m ++ w).getLsbD i = if i < 22 then w.getLsbD i else m.getLsbD (i - 22) := by
  exact BitVec.getLsbD_append

theorem getLsbD_rxcritPayload (x : BitVec 14) (h : Byte) (i : Nat) :
    (show Payload from 0b10#2 ++ x ++ h).getLsbD i =
      if i < 8 then h.getLsbD i
      else if i - 8 < 14 then x.getLsbD (i - 8) else (0b10#2).getLsbD (i - 8 - 14) := by
  have e : (show Payload from 0b10#2 ++ x ++ h).getLsbD i = (0b10#2 ++ x ++ h).getLsbD i := rfl
  rw [e, BitVec.getLsbD_append, BitVec.getLsbD_append]

/-! ### Fields of a joined frame -/

@[simp] theorem crcField_joinFrame (c : Byte) (p : Payload) : crcField (joinFrame c p) = c := by
  ext i hi
  simp [crcField, BitVec.getElem_extractLsb', getLsbD_joinFrame, hi]

@[simp] theorem payloadField_joinFrame (c : Byte) (p : Payload) : payloadField (joinFrame c p) = p := by
  ext i hi
  simp [payloadField, BitVec.getElem_extractLsb', getLsbD_joinFrame, hi]

@[simp] theorem joinFrame_fields (f : Frame) : joinFrame (crcField f) (payloadField f) = f := by
  apply BitVec.eq_of_getLsbD_eq
  intro i hi
  rw [getLsbD_joinFrame]
  split
  · simp [payloadField, *]
  · rw [crcField, BitVec.getLsbD_extractLsb']
    have : i - 24 < 8 := by omega
    simp [this, show 24 + (i - 24) = i by omega]

theorem frame_ext {f g : Frame} (hc : crcField f = crcField g) (hp : payloadField f = payloadField g) : f = g := by
  rw [← joinFrame_fields f, ← joinFrame_fields g, hc, hp]

/-! ### Fields inside the payload depend on the payload alone -/

theorem modeField_eq (f : Frame) : modeField f = (payloadField f).extractLsb' 22 2 := by
  ext i hi; simp [modeField, payloadField, BitVec.getElem_extractLsb']

theorem statusField_eq (f : Frame) : statusField f = (payloadField f).extractLsb' 17 5 := by
  ext i hi; simp [statusField, payloadField, BitVec.getElem_extractLsb']

theorem rwEchoField_eq (f : Frame) : rwEchoField f = (payloadField f).extractLsb' 16 1 := by
  ext i hi; simp [rwEchoField, payloadField, BitVec.getElem_extractLsb']

theorem dataField_eq (f : Frame) : dataField f = (payloadField f).extractLsb' 0 16 := by
  ext i hi; simp [dataField, payloadField, BitVec.getElem_extractLsb']

theorem wideField_eq (f : Frame) : wideField f = (payloadField f).extractLsb' 0 22 := by
  ext i hi; simp [wideField, payloadField, BitVec.getElem_extractLsb']

theorem healthField_eq (f : Frame) : healthField f = (payloadField f).extractLsb' 0 8 := by
  ext i hi; simp [healthField, payloadField, BitVec.getElem_extractLsb']

/-! ### Fields of a transmit frame -/

@[simp] theorem addrHiField_txWord (c : Byte) (a : BitVec 7) (rw : Bit) (l : BitVec 16) :
    addrHiField (txWord c a rw l) = a := by
  ext i hi
  rw [addrHiField, BitVec.getElem_extractLsb', txWord, getLsbD_joinFrame, getLsbD_txPayload]
  have h1 : 17 + i < 24 := by omega
  have h2 : ¬ 17 + i < 16 := by omega
  have h3 : ¬ 17 + i - 16 < 1 := by omega
  simp [h1, h2, h3, show 17 + i - 16 - 1 = i by omega, BitVec.getLsbD_eq_getElem hi]

@[simp] theorem rwField_txWord (c : Byte) (a : BitVec 7) (rw : Bit) (l : BitVec 16) :
    rwField (txWord c a rw l) = rw := by
  ext i hi
  rw [rwField, BitVec.getElem_extractLsb', txWord, getLsbD_joinFrame, getLsbD_txPayload]
  obtain rfl : i = 0 := by omega
  simp

@[simp] theorem lowField_txWord (c : Byte) (a : BitVec 7) (rw : Bit) (l : BitVec 16) :
    lowField (txWord c a rw l) = l := by
  ext i hi
  rw [lowField, BitVec.getElem_extractLsb', txWord, getLsbD_joinFrame, getLsbD_txPayload]
  simp [hi, show i < 24 by omega]

@[simp] theorem crcField_txWord (c : Byte) (a : BitVec 7) (rw : Bit) (l : BitVec 16) :
    crcField (txWord c a rw l) = c := crcField_joinFrame ..

@[simp] theorem payloadField_txWord (c : Byte) (a : BitVec 7) (rw : Bit) (l : BitVec 16) :
    payloadField (txWord c a rw l) = txPayload a rw l := payloadField_joinFrame ..

theorem txWord_fields (f : Frame) : txWord (crcField f) (addrHiField f) (rwField f) (lowField f) = f := by
  refine frame_ext (crcField_txWord ..) ?_
  rw [payloadField_txWord]
  apply BitVec.eq_of_getLsbD_eq
  intro i hi
  rw [getLsbD_txPayload, payloadField, BitVec.getLsbD_extractLsb']
  split
  · simp [lowField, *]
  split
  · obtain rfl : i = 16 := by omega
    simp [rwField]
  · rw [addrHiField, BitVec.getLsbD_extractLsb']
    simp [hi, show i - 16 - 1 < 7 by omega, show 17 + (i - 16 - 1) = i by omega]

/-! ### Fields of the receive frames -/

@[simp] theorem crcField_rx16Word (c : Byte) (s : BitVec 5) (e : Bit) (d : BitVec 16) :
    crcField (rx16Word c s e d) = c := crcField_joinFrame ..

@[simp] theorem modeField_rx16Word (c : Byte) (s : BitVec 5) (e : Bit) (d : BitVec 16) :
    modeField (rx16Word c s e d) = 0b00#2 := by
  ext i hi
  rw [modeField, BitVec.getElem_extractLsb', rx16Word, getLsbD_joinFrame, if_pos (by omega)]
  refine (getLsbD_rx16Payload s e d _).trans ?_
  have h1 : ¬ 22 + i < 16 := by omega
  have h2 : ¬ 22 + i - 16 < 1 := by omega
  have h3 : ¬ 22 + i - 16 - 1 < 5 := by omega
  simp [h1, h2, h3]

@[simp] theorem statusField_rx16Word (c : Byte) (s : BitVec 5) (e : Bit) (d : BitVec 16) :
    statusField (rx16Word c s e d) = s := by
  ext i hi
  rw [statusField, BitVec.getElem_extractLsb', rx16Word, getLsbD_joinFrame, if_pos (by omega)]
  refine (getLsbD_rx16Payload s e d _).trans ?_
  have h1 : ¬ 17 + i < 16 := by omega
  have h2 : ¬ 17 + i - 16 < 1 := by omega
  simp [h1, h2, hi, show 17 + i - 16 - 1 = i by omega]

@[simp] theorem rwEchoField_rx16Word (c : Byte) (s : BitVec 5) (e : Bit) (d : BitVec 16) :
    rwEchoField (rx16Word c s e d) = e := by
  ext i hi
  obtain rfl : i = 0 := by omega
  rw [rwEchoField, BitVec.getElem_extractLsb', rx16Word, getLsbD_joinFrame, if_pos (by omega)]
  refine (getLsbD_rx16Payload s e d _).trans ?_
  simp

@[simp] theorem dataField_rx16Word (c : Byte) (s : BitVec 5) (e : Bit) (d : BitVec 16) :
    dataField (rx16Word c s e d) = d := by
  ext i hi
  rw [dataField, BitVec.getElem_extractLsb', rx16Word, getLsbD_joinFrame, if_pos (by omega)]
  refine (getLsbD_rx16Payload s e d _).trans ?_
  simp [hi]

@[simp] theorem crcField_rx22Word (c : Byte) (w : BitVec 22) : crcField (rx22Word c w) = c :=
  crcField_joinFrame ..

@[simp] theorem modeField_rx22Word (c : Byte) (w : BitVec 22) : modeField (rx22Word c w) = 0b01#2 := by
  ext i hi
  rw [modeField, BitVec.getElem_extractLsb', rx22Word, getLsbD_joinFrame, if_pos (by omega)]
  refine (getLsbD_rx22Payload _ w _).trans ?_
  simp [BitVec.getLsbD_eq_getElem hi]

@[simp] theorem wideField_rx22Word (c : Byte) (w : BitVec 22) : wideField (rx22Word c w) = w := by
  ext i hi
  rw [wideField, BitVec.getElem_extractLsb', rx22Word, getLsbD_joinFrame, if_pos (by omega)]
  refine (getLsbD_rx22Payload _ w _).trans ?_
  simp [hi]

@[simp] theorem crcField_rxcritWord (u : Byte) (x : BitVec 14) (h : Byte) :
    crcField (rxcritWord u x h) = u := crcField_joinFrame ..

@[simp] theorem modeField_rxcritWord (u : Byte) (x : BitVec 14) (h : Byte) :
    modeField (rxcritWord u x h) = 0b10#2 := by
  ext i hi
  rw [modeField, BitVec.getElem_extractLsb', rxcritWord, getLsbD_joinFrame, if_pos (by omega)]
  refine (getLsbD_rxcritPayload x h _).trans ?_
  have h1 : ¬ 22 + i < 8 := by omega
  have h2 : ¬ 22 + i - 8 < 14 := by omega
  simp [h1, h2, show 22 + i - 8 - 14 = i by omega, BitVec.getLsbD_eq_getElem hi]

@[simp] theorem ignoredField_rxcritWord (u : Byte) (x : BitVec 14) (h : Byte) :
    ignoredField (rxcritWord u x h) = x := by
  ext i hi
  rw [ignoredField, BitVec.getElem_extractLsb', rxcritWord, getLsbD_joinFrame, if_pos (by omega)]
  refine (getLsbD_rxcritPayload x h _).trans ?_
  simp [hi]

@[simp] theorem healthField_rxcritWord (u : Byte) (x : BitVec 14) (h : Byte) :
    healthField (rxcritWord u x h) = h := by
  ext i hi
  rw [healthField, BitVec.getElem_extractLsb', rxcritWord, getLsbD_joinFrame, if_pos (by omega)]
  refine (getLsbD_rxcritPayload x h _).trans ?_
  simp [hi]

@[simp] theorem crcField_rxrsvdWord (c : Byte) (w : BitVec 22) : crcField (rxrsvdWord c w) = c :=
  crcField_joinFrame ..

@[simp] theorem modeField_rxrsvdWord (c : Byte) (w : BitVec 22) : modeField (rxrsvdWord c w) = 0b11#2 := by
  ext i hi
  rw [modeField, BitVec.getElem_extractLsb', rxrsvdWord, getLsbD_joinFrame, if_pos (by omega)]
  refine (getLsbD_rx22Payload _ w _).trans ?_
  simp [BitVec.getLsbD_eq_getElem hi]

@[simp] theorem wideField_rxrsvdWord (c : Byte) (w : BitVec 22) : wideField (rxrsvdWord c w) = w := by
  ext i hi
  rw [wideField, BitVec.getElem_extractLsb', rxrsvdWord, getLsbD_joinFrame, if_pos (by omega)]
  refine (getLsbD_rx22Payload _ w _).trans ?_
  simp [hi]

/-! ### A receive frame is its fields -/

theorem rx16Word_fields (f : Frame) (h : modeField f = 0b00#2) :
    rx16Word (crcField f) (statusField f) (rwEchoField f) (dataField f) = f := by
  refine frame_ext (crcField_rx16Word ..) ?_
  refine (payloadField_joinFrame ..).trans (BitVec.eq_of_getLsbD_eq fun i hi => ?_)
  refine (getLsbD_rx16Payload ..).trans ?_
  rw [payloadField, BitVec.getLsbD_extractLsb']
  split
  · simp [dataField, *]
  split
  · obtain rfl : i = 16 := by omega
    simp [rwEchoField]
  split
  · rw [statusField, BitVec.getLsbD_extractLsb']
    simp [hi, show i - 16 - 1 < 5 by omega, show 17 + (i - 16 - 1) = i by omega]
  · rw [← h, modeField, BitVec.getLsbD_extractLsb']
    simp [hi, show i - 16 - 1 - 5 < 2 by omega, show 22 + (i - 16 - 1 - 5) = i by omega]

/-- Mode bits above the wide field. -/
theorem mode_wide_fields (f : Frame) : (show Payload from modeField f ++ wideField f) = payloadField f := by
  refine BitVec.eq_of_getLsbD_eq fun i hi => ?_
  refine (getLsbD_rx22Payload ..).trans ?_
  rw [payloadField, BitVec.getLsbD_extractLsb']
  split
  · simp [wideField, *]
  · rw [modeField, BitVec.getLsbD_extractLsb']
    simp [hi, show i - 22 < 2 by omega, show 22 + (i - 22) = i by omega]

theorem rx22Word_fields (f : Frame) (h : modeField f = 0b01#2) :
    rx22Word (crcField f) (wideField f) = f := by
  refine frame_ext (crcField_rx22Word ..) ((payloadField_joinFrame ..).trans ?_)
  rw [← h]
  exact mode_wide_fields f

theorem rxrsvdWord_fields (f : Frame) (h : modeField f = 0b11#2) :
    rxrsvdWord (crcField f) (wideField f) = f := by
  refine frame_ext (crcField_rxrsvdWord ..) ((payloadField_joinFrame ..).trans ?_)
  rw [← h]
  exact mode_wide_fields f

theorem rxcritWord_fields (f : Frame) (h : modeField f = 0b10#2) :
    rxcritWord (crcField f) (ignoredField f) (healthField f) = f := by
  refine frame_ext (crcField_rxcritWord ..) ?_
  refine (payloadField_joinFrame ..).trans (BitVec.eq_of_getLsbD_eq fun i hi => ?_)
  refine (getLsbD_rxcritPayload ..).trans ?_
  rw [payloadField, BitVec.getLsbD_extractLsb']
  split
  · simp [healthField, *]
  split
  · rw [ignoredField, BitVec.getLsbD_extractLsb']
    simp [hi, show i - 8 < 14 by omega, show 8 + (i - 8) = i by omega]
  · rw [← h, modeField, BitVec.getLsbD_extractLsb']
    simp [hi, show i - 8 - 14 < 2 by omega, show 22 + (i - 8 - 14) = i by omega]

/-! ### The reply mode -/

@[simp] theorem replyModeCode_replyMode (m : BitVec 2) : replyModeCode (replyMode m) = m := by
  revert m; decide

@[simp] theorem replyMode_00 : replyMode 0b00#2 = .reply16 := rfl
@[simp] theorem replyMode_01 : replyMode 0b01#2 = .reply22 := rfl
@[simp] theorem replyMode_10 : replyMode 0b10#2 = .critical := rfl
@[simp] theorem replyMode_11 : replyMode 0b11#2 = .reserved := rfl

/-- The four cases of a mode field. -/
theorem mode_cases (m : BitVec 2) : m = 0b00#2 ∨ m = 0b01#2 ∨ m = 0b10#2 ∨ m = 0b11#2 := by
  revert m; decide

/-! ### Bytes of a frame -/

/-- The four bytes of a frame make it again (R28). -/
theorem ofFrameBytes_bytes (f : Frame) :
    ofFrameBytes (f.extractLsb' 24 8) (f.extractLsb' 16 8) (f.extractLsb' 8 8) (f.extractLsb' 0 8) = f := by
  refine BitVec.eq_of_getLsbD_eq fun i hi => ?_
  have h : (ofFrameBytes (f.extractLsb' 24 8) (f.extractLsb' 16 8) (f.extractLsb' 8 8) (f.extractLsb' 0 8)).getLsbD i =
    (f.extractLsb' 24 8 ++ f.extractLsb' 16 8 ++ f.extractLsb' 8 8 ++ f.extractLsb' 0 8).getLsbD i := rfl
  rw [h, BitVec.getLsbD_append, BitVec.getLsbD_append, BitVec.getLsbD_append]
  simp only [BitVec.getLsbD_extractLsb']
  split
  · simp [*]
  split
  · simp [show i - 8 < 8 by omega, show 8 + (i - 8) = i by omega]
  split
  · simp [show i - 8 - 8 < 8 by omega, show 16 + (i - 8 - 8) = i by omega]
  · simp [show i - 8 - 8 - 8 < 8 by omega, show 24 + (i - 8 - 8 - 8) = i by omega]

/-- Four bytes are the bytes of the frame they make (R28). -/
theorem frameBytes_ofFrameBytes (b3 b2 b1 b0 : Byte) : frameBytes (ofFrameBytes b3 b2 b1 b0) = [b3, b2, b1, b0] := by
  have h : ∀ j, (ofFrameBytes b3 b2 b1 b0).getLsbD j = (b3 ++ b2 ++ b1 ++ b0).getLsbD j := fun _ => rfl
  have e3 : (ofFrameBytes b3 b2 b1 b0).extractLsb' 24 8 = b3 := by
    refine BitVec.eq_of_getLsbD_eq fun i hi => ?_
    rw [BitVec.getLsbD_extractLsb', h, BitVec.getLsbD_append, BitVec.getLsbD_append, BitVec.getLsbD_append]
    simp [hi, show ¬ 24 + i < 8 by omega, show ¬ 24 + i - 8 < 8 by omega, show ¬ 24 + i - 8 - 8 < 8 by omega,
      show 24 + i - 8 - 8 - 8 = i by omega]
  have e2 : (ofFrameBytes b3 b2 b1 b0).extractLsb' 16 8 = b2 := by
    refine BitVec.eq_of_getLsbD_eq fun i hi => ?_
    rw [BitVec.getLsbD_extractLsb', h, BitVec.getLsbD_append, BitVec.getLsbD_append, BitVec.getLsbD_append]
    simp [hi, show ¬ 16 + i < 8 by omega, show ¬ 16 + i - 8 < 8 by omega, show 16 + i - 8 - 8 = i by omega]
  have e1 : (ofFrameBytes b3 b2 b1 b0).extractLsb' 8 8 = b1 := by
    refine BitVec.eq_of_getLsbD_eq fun i hi => ?_
    rw [BitVec.getLsbD_extractLsb', h, BitVec.getLsbD_append, BitVec.getLsbD_append, BitVec.getLsbD_append]
    simp [hi, show ¬ 8 + i < 8 by omega]
  have e0 : (ofFrameBytes b3 b2 b1 b0).extractLsb' 0 8 = b0 := by
    refine BitVec.eq_of_getLsbD_eq fun i hi => ?_
    rw [BitVec.getLsbD_extractLsb', h, BitVec.getLsbD_append, BitVec.getLsbD_append, BitVec.getLsbD_append]
    simp [hi]
  rw [frameBytes, e3, e2, e1, e0]

end Sys2Proof.Machine
end

