-- ==== Sys2Proof/Laws/Checksum.lean ====
section
/-! SUPPORT. The checksum's steps are linear over xor (R63's reason: "every step of the procedure is linear
over GF(2) in (`r`, message)"), and the zero register stays zero. -/

namespace Sys2Proof.Machine

theorem shiftOnce_xor (poly a b : Byte) : shiftOnce poly (a ^^^ b) = shiftOnce poly a ^^^ shiftOnce poly b := by
  have hs : (a ^^^ b) <<< 1 = a <<< 1 ^^^ b <<< 1 := BitVec.shiftLeft_xor_distrib a b 1
  have comm : ∀ x y z : Byte, (x ^^^ y) ^^^ z = (x ^^^ z) ^^^ y := fun x y z => by
    rw [BitVec.xor_assoc, BitVec.xor_assoc, BitVec.xor_comm y z]
  unfold shiftOnce
  rw [BitVec.getLsbD_xor, hs]
  cases a.getLsbD 7 <;> cases b.getLsbD 7 <;> simp
  · exact BitVec.xor_assoc ..
  · exact comm ..
  · rw [← BitVec.xor_assoc, comm (a <<< 1) poly (b <<< 1), BitVec.xor_assoc, BitVec.xor_self, BitVec.xor_zero]

@[simp] theorem shiftOnce_zero (poly : Byte) : shiftOnce poly 0#8 = 0#8 := by simp [shiftOnce]

theorem shiftTimes_xor (poly : Byte) (n : Nat) (a b : Byte) :
    shiftTimes poly n (a ^^^ b) = shiftTimes poly n a ^^^ shiftTimes poly n b := by
  induction n generalizing a b with
  | zero => rfl
  | succ n ih => rw [shiftTimes, shiftTimes, shiftTimes, shiftOnce_xor, ih]

@[simp] theorem shiftTimes_zero (poly : Byte) (n : Nat) : shiftTimes poly n 0#8 = 0#8 := by
  induction n with
  | zero => rfl
  | succ n ih => rw [shiftTimes, shiftOnce_zero, ih]

theorem shiftTimes_add (poly : Byte) (m n : Nat) (r : Byte) :
    shiftTimes poly (m + n) r = shiftTimes poly n (shiftTimes poly m r) := by
  induction m generalizing r with
  | zero => simp [shiftTimes]
  | succ m ih => rw [Nat.succ_add, shiftTimes, shiftTimes, ih]

/-- R11: bit `i` of the reflected byte is bit `7 - i`. -/
theorem getLsbD_reflect8 (b : Byte) (i : Nat) (hi : i < 8) : (reflect8 b).getLsbD i = b.getLsbD (7 - i) := by
  rw [reflect8, BitVec.getLsbD_reverse, BitVec.getMsbD]
  simp [hi]

theorem reflect8_xor (a b : Byte) : reflect8 (a ^^^ b) = reflect8 a ^^^ reflect8 b := by
  apply BitVec.eq_of_getLsbD_eq
  intro i hi
  rw [BitVec.getLsbD_xor, getLsbD_reflect8 _ _ hi, getLsbD_reflect8 _ _ hi, getLsbD_reflect8 _ _ hi,
    BitVec.getLsbD_xor]

theorem feedIn_xor (c : CrcParams) (a b : Byte) : feedIn c (a ^^^ b) = feedIn c a ^^^ feedIn c b := by
  unfold feedIn
  split
  · exact reflect8_xor a b
  · rfl

theorem crcByte_xor (c : CrcParams) (r r' b b' : Byte) :
    crcByte c (r ^^^ r') (b ^^^ b') = crcByte c r b ^^^ crcByte c r' b' := by
  rw [crcByte, crcByte, crcByte, feedIn_xor, ← shiftTimes_xor]
  congr 1
  rw [BitVec.xor_assoc, BitVec.xor_assoc, ← BitVec.xor_assoc r' (feedIn c b), BitVec.xor_comm r' (feedIn c b),
    BitVec.xor_assoc (feedIn c b) r']

theorem payloadByte_xor (p q : Payload) (k : Nat) :
    payloadByte (p ^^^ q) k = payloadByte p k ^^^ payloadByte q k := by
  apply BitVec.eq_of_getLsbD_eq
  intro i hi
  simp [payloadByte, hi]

/-- The three bytes of the feed, one by one. -/
theorem feedBytes_eq (c : CrcParams) :
    ∃ i j k, (i, j, k) ∈ [(2, 1, 0), (2, 0, 1), (1, 2, 0), (1, 0, 2), (0, 2, 1), (0, 1, 2)] ∧
      ∀ p, feedBytes c p = [payloadByte p i, payloadByte p j, payloadByte p k] := by
  unfold feedBytes
  cases c.feed
  · exact ⟨2, 1, 0, by simp, fun _ => rfl⟩
  · exact ⟨2, 0, 1, by simp, fun _ => rfl⟩
  · exact ⟨1, 2, 0, by simp, fun _ => rfl⟩
  · exact ⟨1, 0, 2, by simp, fun _ => rfl⟩
  · exact ⟨0, 2, 1, by simp, fun _ => rfl⟩
  · exact ⟨0, 1, 2, by simp, fun _ => rfl⟩

theorem crcFinish_xor (c : CrcParams) (r r' : Byte) :
    crcFinish c (r ^^^ r') = crcFinish c r ^^^ (if c.refOut then reflect8 r' else r') := by
  unfold crcFinish
  split
  · rw [reflect8_xor, BitVec.xor_assoc, BitVec.xor_comm (reflect8 r') c.xorOut, ← BitVec.xor_assoc]
  · rw [BitVec.xor_assoc, BitVec.xor_comm r' c.xorOut, ← BitVec.xor_assoc]

end Sys2Proof.Machine
end

