-- ==== Sys2Proof/Laws/PerInstr.lean ====
section
/-! SUPPORT. Per-instruction families. `RoundTrip`: the decoder reads back the instruction that the encoder
wrote, with every field at every value. -/

namespace Sys2Proof.Laws.RoundTrip

open Sys2Proof.Machine

/-- The statement for one instruction, as syntax. -/
def Statement (i : Instr) : Prop := decodeBytes (encode i).1 (encode i).2 = .ok i

theorem crc : Statement .crc := by unfold Statement; decide
theorem verifyCrc : Statement .verifyCrc := by unfold Statement; decide
theorem encodeRead : Statement .encodeRead := by unfold Statement; decide
theorem encodeWrite : Statement .encodeWrite := by unfold Statement; decide
theorem decode : Statement .decode := by unfold Statement; decide
theorem classify : Statement .classify := by unfold Statement; decide

/-- The bytes of a transmit frame decode to its fields. -/
theorem decode_transmit (kind : TxKind) (f : Frame) :
    decodeBytes (.frameOut kind) (frameBytes f) = .ok (decodeTransmit kind f) := by
  rw [frameBytes, decodeBytes, ofFrameBytes_bytes]

/-- The bytes of a receive frame decode to its fields. -/
theorem decode_receive (f : Frame) : decodeBytes .frameIn (frameBytes f) = .ok (decodeReceive f) := by
  rw [frameBytes, decodeBytes, ofFrameBytes_bytes]

theorem txRead (c : Byte) (a : BitVec 7) (rw : Bit) (l : BitVec 16) : Statement (.txRead c a rw l) :=
  (decode_transmit ..).trans (by simp [decodeTransmit])

theorem txWrite (c : Byte) (a : BitVec 7) (rw : Bit) (l : BitVec 16) : Statement (.txWrite c a rw l) :=
  (decode_transmit ..).trans (by simp [decodeTransmit])

theorem rx16 (c : Byte) (s : BitVec 5) (e : Bit) (d : BitVec 16) : Statement (.rx16 c s e d) :=
  (decode_receive ..).trans (by simp [decodeReceive])

theorem rx22 (c : Byte) (w : BitVec 22) : Statement (.rx22 c w) :=
  (decode_receive ..).trans (by simp [decodeReceive])

theorem rxcrit (u : Byte) (x : BitVec 14) (h : Byte) : Statement (.rxcrit u x h) :=
  (decode_receive ..).trans (by simp [decodeReceive])

theorem rxrsvd (c : Byte) (w : BitVec 22) : Statement (.rxrsvd c w) :=
  (decode_receive ..).trans (by simp [decodeReceive])

end Sys2Proof.Laws.RoundTrip
end

