-- ==== Sys2Proof/Laws/State.lean ====
section
/-! SUPPORT. One lemma per field per update of State, and per port per write, so that no proof unfolds a
record update. -/

namespace Sys2Proof.Machine

variable (s : State) (w : OutPorts → OutPorts) (f : Frame) (e : TransportError) (d : Device)

@[simp] theorem drive_inp : (s.drive w).inp = s.inp := rfl
@[simp] theorem drive_out : (s.drive w).out = w (Config.drawnPorts s.draws) := rfl
@[simp] theorem drive_xfer : (s.drive w).xfer = s.xfer := rfl
@[simp] theorem drive_device : (s.drive w).device = s.device := rfl
@[simp] theorem drive_program : (s.drive w).program = s.program := rfl
@[simp] theorem drive_draws : (s.drive w).draws = s.draws + 1 := rfl

@[simp] theorem redraw_inp : s.redraw.inp = s.inp := rfl
@[simp] theorem redraw_out : s.redraw.out = Config.drawnPorts s.draws := rfl
@[simp] theorem redraw_xfer : s.redraw.xfer = s.xfer := rfl
@[simp] theorem redraw_device : s.redraw.device = s.device := rfl
@[simp] theorem redraw_program : s.redraw.program = s.program := rfl
@[simp] theorem redraw_draws : s.redraw.draws = s.draws + 1 := rfl

@[simp] theorem receiveFrame_inp : (s.receiveFrame f).inp = { s.inp with frameIn := f } := rfl
@[simp] theorem receiveFrame_out : (s.receiveFrame f).out = Config.drawnPorts s.draws := rfl
@[simp] theorem receiveFrame_xfer :
    (s.receiveFrame f).xfer = s.xfer.completeReply Config.replyPairing f := rfl
@[simp] theorem receiveFrame_device : (s.receiveFrame f).device = s.device := rfl
@[simp] theorem receiveFrame_program : (s.receiveFrame f).program = s.program := rfl
@[simp] theorem receiveFrame_draws : (s.receiveFrame f).draws = s.draws + 1 := rfl

@[simp] theorem failExchange_inp : (s.failExchange e).inp = s.inp := rfl
@[simp] theorem failExchange_out : (s.failExchange e).out = Config.drawnPorts s.draws := rfl
@[simp] theorem failExchange_xfer : (s.failExchange e).xfer = s.xfer.completeError e := rfl
@[simp] theorem failExchange_device : (s.failExchange e).device = s.device := rfl
@[simp] theorem failExchange_program : (s.failExchange e).program = s.program := rfl
@[simp] theorem failExchange_draws : (s.failExchange e).draws = s.draws + 1 := rfl

@[simp] theorem setDevice_inp : (s.setDevice d).inp = s.inp := rfl
@[simp] theorem setDevice_out : (s.setDevice d).out = Config.drawnPorts s.draws := rfl
@[simp] theorem setDevice_xfer : (s.setDevice d).xfer = s.xfer := rfl
@[simp] theorem setDevice_device : (s.setDevice d).device = d := rfl
@[simp] theorem setDevice_program : (s.setDevice d).program = s.program := rfl
@[simp] theorem setDevice_draws : (s.setDevice d).draws = s.draws + 1 := rfl

theorem completeError_of_busy (x : Xfer) {tx : Frame} (h : x.inFlight = some tx) :
    x.completeError e = { inFlight := none, previous := some tx, result := some (.error e), answers := none } := by
  simp [Xfer.completeError, h]

theorem completeError_of_idle (x : Xfer) (h : x.inFlight = none) : x.completeError e = x := by
  simp [Xfer.completeError, h]

/-- An operation keeps everything but the output ports. -/
theorem drive_kept : s.Kept (s.drive w) := ⟨rfl, rfl, rfl, rfl, rfl⟩

/-! ### The writes of `CLASSIFY` and `DECODE` -/

variable (v : ReplyView) (o : CodecOutcome) (p : OutPorts)

@[simp] theorem deliver_outOk : (deliver o p).outOk = outOkFlag o := by cases o <;> rfl
@[simp] theorem deliver_viewKind : (deliver o p).viewKind = p.viewKind := by cases o <;> rfl
@[simp] theorem deliver_viewHealth : (deliver o p).viewHealth = p.viewHealth := by cases o <;> rfl
@[simp] theorem deliver_ok_outValue (x : BitVec 32) : (deliver (.ok x) p).outValue = x := rfl
@[simp] theorem deliver_err_outKind (k : ErrorKind) (i : ErrInfo) : (deliver (.err k i) p).outKind = kindCode k := rfl
@[simp] theorem deliver_err_outInfo (k : ErrorKind) (i : ErrInfo) : (deliver (.err k i) p).outInfo = i := rfl

@[simp] theorem writeViewKind_viewKind : (writeViewKind v p).viewKind = viewKindFlag v := by cases v <;> rfl
@[simp] theorem writeViewKind_critical_viewHealth (h : Byte) : (writeViewKind (.critical h) p).viewHealth = h := rfl

@[simp] theorem writeView_viewKind : (writeView v p).viewKind = viewKindFlag v := by cases v <;> rfl

end Sys2Proof.Machine
end

