-- ==== Sys2Proof/Laws/Reply.lean ====
section
/-! SUPPORT. The spec lemmas of the decoder and the classifier, one per reply mode; callers cite these and
unfold neither function. -/

namespace Sys2Proof.Machine

variable (P : Params) (f : Frame) (v : Bit)

theorem decodeReply_00 (h : modeField f = 0b00#2) :
    decodeReply P f =
      .reply16 (statusField f) (P.statusKind (statusField f)) (rwEchoField f) (dataField f) (crcField f) := by
  simp [decodeReply, h]

theorem decodeReply_01 (h : modeField f = 0b01#2) : decodeReply P f = .reply22 (wideField f) (crcField f) := by
  simp [decodeReply, h]

theorem decodeReply_10 (h : modeField f = 0b10#2) : decodeReply P f = .critical (healthField f) := by
  simp [decodeReply, h]

theorem decodeReply_11 (h : modeField f = 0b11#2) : decodeReply P f = .reserved := by
  simp [decodeReply, h]

/-- R17: `view_kind` equals `frame_in[23:22]`. -/
@[simp] theorem viewKindFlag_decodeReply : viewKindFlag (decodeReply P f) = modeField f := by
  rcases mode_cases (modeField f) with h | h | h | h
  · rw [decodeReply_00 P f h, h]; rfl
  · rw [decodeReply_01 P f h, h]; rfl
  · rw [decodeReply_10 P f h, h]; rfl
  · rw [decodeReply_11 P f h, h]; rfl

theorem classifyReply_00 (h : modeField f = 0b00#2) :
    classifyReply P f v =
      if crcTestFails P.crc f v then .err .crcError .localMismatch
      else
        match P.statusKind (statusField f) with
        | some k => .err k (.status (statusField f))
        | none => .ok (widenData (dataField f)) := by
  rw [classifyReply, decodeReply_00 P f h] <;> rfl

theorem classifyReply_01 (h : modeField f = 0b01#2) :
    classifyReply P f v =
      if crcTestFails P.crc f v then .err .crcError .localMismatch else .ok (widenWide (wideField f)) := by
  rw [classifyReply, decodeReply_01 P f h]

theorem classifyReply_10 (h : modeField f = 0b10#2) :
    classifyReply P f v = .err .hardwareError (.health (healthField f)) := by
  rw [classifyReply, decodeReply_10 P f h]

theorem classifyReply_11 (h : modeField f = 0b11#2) : classifyReply P f v = .err P.reservedModeKind .none := by
  rw [classifyReply, decodeReply_11 P f h]

/-! ### The status kind -/

@[simp] theorem statusKind_zero : P.statusKind 0#5 = none := rfl

theorem statusKind_of_ne {s : BitVec 5} (h : s ≠ 0#5) : P.statusKind s = some (P.statusError s).kind := by
  simp [Params.statusKind, h]

theorem statusKind_eq_none_iff (s : BitVec 5) : P.statusKind s = none ↔ s = 0#5 := by
  by_cases h : s = 0#5 <;> simp [Params.statusKind, h]

/-! ### The CRC test -/

@[simp] theorem crcTestFails_off (c : CrcParams) : crcTestFails c f 0#1 = false := rfl

@[simp] theorem crcTestFails_on (c : CrcParams) : crcTestFails c f 1#1 = !crcMatches c f := rfl

theorem crcMatches_iff (c : CrcParams) : crcMatches c f = true ↔ crcField f = crc8 c (payloadField f) := by
  simp [crcMatches]

end Sys2Proof.Machine
end

