-- ==== Sys2Proof/Laws/Step.lean ====
section
/-! SUPPORT. What an instruction and a step can do, said once. Invariants and whole-machine statements are
derived from these two inversion lemmas. -/

namespace Sys2Proof.Machine

variable {s t : State} {i : Instr}

theorem startExchange_of_idle (tx : Frame) (h : s.xfer.inFlight = none) :
    s.startExchange tx = .next { s.redraw with xfer := { s.xfer with inFlight := some tx } } := by
  simp [State.startExchange, h]

theorem startExchange_of_busy (tx : Frame) {u : Frame} (h : s.xfer.inFlight = some u) :
    s.startExchange tx = .refused .exchangeInFlight := by
  simp [State.startExchange, h]

theorem startExchange_next (tx : Frame) (h : s.startExchange tx = .next t) :
    s.xfer.inFlight = none ∧ t = { s.redraw with xfer := { s.xfer with inFlight := some tx } } := by
  cases hx : s.xfer.inFlight with
  | none => rw [startExchange_of_idle tx hx] at h; cases h; exact ⟨rfl, rfl⟩
  | some u => rw [startExchange_of_busy tx hx] at h; cases h

/-- Everything an instruction can do when it answers a next state: drive the output ports, start an exchange
where none was under way, or present a reply. -/
theorem exec_next_cases (h : exec i s = .next t) :
    (∃ w, t = s.drive w) ∨
    (∃ tx, s.xfer.inFlight = none ∧ t = { s.redraw with xfer := { s.xfer with inFlight := some tx } }) ∨
    (∃ rx, t = s.receiveFrame rx) := by
  cases i with
  | crc => cases h; exact .inl ⟨_, rfl⟩
  | verifyCrc => cases h; exact .inl ⟨_, rfl⟩
  | encodeRead => cases h; exact .inl ⟨_, rfl⟩
  | encodeWrite => cases h; exact .inl ⟨_, rfl⟩
  | decode => cases h; exact .inl ⟨_, rfl⟩
  | classify => cases h; exact .inl ⟨_, rfl⟩
  | txRead => exact .inr (.inl ⟨_, startExchange_next _ h⟩)
  | txWrite => exact .inr (.inl ⟨_, startExchange_next _ h⟩)
  | rx16 => cases h; exact .inr (.inr ⟨_, rfl⟩)
  | rx22 => cases h; exact .inr (.inr ⟨_, rfl⟩)
  | rxcrit => cases h; exact .inr (.inr ⟨_, rfl⟩)
  | rxrsvd => cases h; exact .inr (.inr ⟨_, rfl⟩)

/-- Everything a step can do when it answers a next state: idle, run an instruction on the state with the
line taken off the program and (for an invocation) its inputs presented, or carry out a host event. -/
theorem step_next_cases (h : step s = .next t) :
    (s.program = [] ∧ t = s.redraw) ∨
    (∃ line rest i u, s.program = line :: rest ∧ exec i u = .next t ∧ u.program = rest ∧
      u.xfer = s.xfer ∧ u.device = s.device ∧ u.draws = s.draws) ∨
    (∃ e rest, s.program = .transportError e :: rest ∧ t = { s with program := rest }.failExchange e) ∨
    (∃ d rest, s.program = .device d :: rest ∧ t = { s with program := rest }.setDevice d) := by
  rw [step, State.fetch] at h
  cases hp : s.program with
  | nil => rw [hp] at h; cases h; exact .inl ⟨rfl, rfl⟩
  | cons line rest =>
    rw [hp] at h
    cases line with
    | invoke op operands override =>
      simp only [State.fetchLine, State.fetchInvoke] at h
      split at h
      · rename_i hf; split at hf
        · cases hf
        · split at hf <;> cases hf
      · cases h
      · rename_i i u hf; split at hf
        · cases hf
        · split at hf
          · cases hf
          · cases hf; exact .inr (.inl ⟨_, rest, _, _, rfl, h, rfl, rfl, rfl, rfl⟩)
    | transmit kind tx => exact .inr (.inl ⟨_, rest, _, _, rfl, h, rfl, rfl, rfl, rfl⟩)
    | receive rx => exact .inr (.inl ⟨_, rest, _, _, rfl, h, rfl, rfl, rfl, rfl⟩)
    | transportError e => cases h; exact .inr (.inr (.inl ⟨e, rest, rfl, rfl⟩))
    | device d => cases h; exact .inr (.inr (.inr ⟨d, rest, rfl, rfl⟩))

/-- A step that fetches an instruction is that instruction. -/
theorem step_of_fetch_run {u : State} (h : s.fetch = .run i u) : step s = exec i u := by
  rw [step, h]

theorem step_of_fetch_refuse {r : Refusal} (h : s.fetch = .refuse r) : step s = .refused r := by
  rw [step, h]

/-- A transmit line starts an exchange with its very frame. -/
theorem step_transmit {kind : TxKind} {tx : Frame} {rest : List HostLine}
    (hp : s.program = .transmit kind tx :: rest) :
    step s = State.startExchange tx { s with program := rest } := by
  rw [step, State.fetch, hp]
  cases kind <;> exact congrArg (fun f => State.startExchange f { s with program := rest }) (txWord_fields tx)

/-- The word that decodes to a receive row is presented as it came. -/
theorem exec_decodeReceive (rx : Frame) : exec (decodeReceive rx) s = .next (s.receiveFrame rx) := by
  rcases mode_cases (modeField rx) with h | h | h | h <;> rw [decodeReceive, h]
  · exact congrArg (fun f => Host.Outcome.next (s.receiveFrame f)) (rx16Word_fields rx h)
  · exact congrArg (fun f => Host.Outcome.next (s.receiveFrame f)) (rx22Word_fields rx h)
  · exact congrArg (fun f => Host.Outcome.next (s.receiveFrame f)) (rxcritWord_fields rx h)
  · exact congrArg (fun f => Host.Outcome.next (s.receiveFrame f)) (rxrsvdWord_fields rx h)

/-- A receive line presents its very frame. -/
theorem step_receive {rx : Frame} {rest : List HostLine} (hp : s.program = .receive rx :: rest) :
    step s = .next (State.receiveFrame rx { s with program := rest }) := by
  rw [step, State.fetch, hp]
  exact exec_decodeReceive rx

/-- A transport-error line. -/
theorem step_transportError {e : TransportError} {rest : List HostLine}
    (hp : s.program = .transportError e :: rest) :
    step s = .next (State.failExchange e { s with program := rest }) := by
  rw [step, State.fetch, hp]; rfl

/-- A line that changes the Device's bits. -/
theorem step_device {d : Device} {rest : List HostLine} (hp : s.program = .device d :: rest) :
    step s = .next (State.setDevice d { s with program := rest }) := by
  rw [step, State.fetch, hp]; rfl

/-- A run whose first step is known. -/
theorem run_succ (k : Nat) (h : step s = .next t) : Sys2Proof.core.run (k + 1) s = Sys2Proof.core.run k t := by
  have h' : Sys2Proof.core.step s = .next t := h
  have aux : ∀ (M : Host.Core) (a b : M.State), M.step a = .next b → M.run (k + 1) a = M.run k b := fun M a b e => by
    simp [Host.Core.run, e]
  exact aux _ _ _ h'

/-- The two lines of an exchange, from a state with none under way, complete it with its result. -/
theorem run_exchange (x : Exchange) {rest : List HostLine} (hx : s.xfer.inFlight = none)
    (hp : s.program = x.lines ++ rest) :
    ∃ t, Sys2Proof.core.run 2 s = .next t ∧ t.program = rest ∧ t.xfer.inFlight = none ∧
      t.xfer.previous = some x.tx ∧ t.xfer.result = some x.result ∧ t.device = s.device ∧
      t.inp = match x.result with
        | .reply rx => { s.inp with frameIn := rx }
        | .error _ => s.inp := by
  obtain ⟨kind, tx, result⟩ := x
  have e1 := step_transmit (kind := kind) (tx := tx) (rest := result.line :: rest) hp
  rw [startExchange_of_idle _ (by exact hx)] at e1
  cases result with
  | reply rx =>
    exact ⟨_, (run_succ 1 e1).trans (run_succ 0 (step_receive (rx := rx) (rest := rest) rfl)),
      rfl, rfl, rfl, rfl, rfl, rfl⟩
  | error e =>
    exact ⟨_, (run_succ 1 e1).trans (run_succ 0 (step_transportError (e := e) (rest := rest) rfl)),
      rfl, rfl, rfl, rfl, rfl, rfl⟩

/-- The fetch of an invocation whose inputs are there. -/
theorem fetchInvoke_run {op : BitVec 3} {operands : Operands} {override : Option Bit}
    (hd : decodeSelector op = .ok i)
    (hf : readsFrameIn i = true → operands.frameIn.frame s.xfer ≠ none) :
    s.fetchInvoke op operands override = .run i { s with inp := s.presentInputs op operands override } := by
  rw [State.fetchInvoke, hd]
  cases hr : readsFrameIn i with
  | false => simp [hr]
  | true =>
    have := hf hr
    cases hx : operands.frameIn.frame s.xfer with
    | none => exact absurd hx this
    | some g => simp

end Sys2Proof.Machine
end

