-- ==== Sys2Proof/Tests/Slice0.lean ====
section
/-! SUPPORT. Tests. Expected values are the spec's worked examples and its tables of 95_test_vectors.md, or
are written out from the layouts of 30_encoding.md. Numeric vectors hold for the reference instance REF (R7)
or the instance named. -/

namespace Sys2Proof.Tests

open Sys2Proof.Machine

/-! ### WellFormed: an ill-formed term for each check -/

/-- 95_test_vectors.md 2.5: 0xC9000104. -/
theorem test_wellFormed_accepts_read :
    (Instr.txRead 0xC9#8 0#7 0#1 0x0104#16).wellFormed Params.ref = true := by decide +kernel

/-- 95_test_vectors.md 2.4: 0x9001BEEF. -/
theorem test_wellFormed_accepts_write :
    (Instr.txWrite 0x90#8 0#7 1#1 0xBEEF#16).wellFormed Params.ref = true := by decide +kernel

/-- R39: the CRC field is not the checksum. -/
theorem test_wellFormed_refuses_wrong_crc :
    (Instr.txWrite 0x91#8 0#7 1#1 0xBEEF#16).wellFormed Params.ref = false := by decide +kernel

/-- R41: a frame with a good checksum and the flag of the other encoder, both ways. -/
theorem test_wellFormed_refuses_wrong_flag :
    (Instr.txRead 0x90#8 0#7 1#1 0xBEEF#16).wellFormed Params.ref = false ∧
    (Instr.txWrite 0xC9#8 0#7 0#1 0x0104#16).wellFormed Params.ref = false := by decide +kernel

/-! ### Decoding: words written out from the layouts -/

/-- R50: the six selector codes. -/
theorem test_decode_selectors :
    decodeBytes .op [0b00000000#8] = .ok .crc ∧
    decodeBytes .op [0b00000001#8] = .ok .verifyCrc ∧
    decodeBytes .op [0b00000010#8] = .ok .encodeRead ∧
    decodeBytes .op [0b00000011#8] = .ok .encodeWrite ∧
    decodeBytes .op [0b00000100#8] = .ok .decode ∧
    decodeBytes .op [0b00000101#8] = .ok .classify := by decide +kernel

/-- R51, R37: what the decoder rejects, by name. -/
theorem test_decode_rejects :
    decodeBytes .op [0b00000110#8] = .error (.reservedSelector 6#3) ∧
    decodeBytes .op [0b00000111#8] = .error (.reservedSelector 7#3) ∧
    decodeBytes .op [0b00001000#8] = .error (.selectorTooWide 8#8) ∧
    decodeBytes .frameIn [0#8, 0#8, 0#8] = .error .wrongLength := by decide +kernel

/-- R38: `cccccccc aaaaaaa w llllllllllllllll`, 11001001 0000000 0 0000000100000100. -/
theorem test_decode_txRead :
    decodeBytes (.frameOut .read) [0b11001001#8, 0b00000000#8, 0b00000001#8, 0b00000100#8] =
      .ok (.txRead 0xC9#8 0b0000000#7 0#1 0x0104#16) := by decide +kernel

/-- R38: 00111111 0001001 1 0101011001111000 (R66, second worked example). -/
theorem test_decode_txWrite :
    decodeBytes (.frameOut .write) [0b00111111#8, 0b00010011#8, 0b01010110#8, 0b01111000#8] =
      .ok (.txWrite 0x3F#8 0b0001001#7 1#1 0x5678#16) := by decide +kernel

/-- R45: `cccccccc 00 sssss e dddddddddddddddd`, 01101001 00 00011 1 0001001000110100. -/
theorem test_decode_rx16 :
    decodeBytes .frameIn [0b01101001#8, 0b00000111#8, 0b00010010#8, 0b00110100#8] =
      .ok (.rx16 0x69#8 0b00011#5 1#1 0x1234#16) := by decide +kernel

/-- R46: `cccccccc 01 wwwwwwwwwwwwwwwwwwwwww`, 10001111 01 1010101011110011011110. -/
theorem test_decode_rx22 :
    decodeBytes .frameIn [0b10001111#8, 0b01101010#8, 0b10111100#8, 0b11011110#8] =
      .ok (.rx22 0x8F#8 0x2ABCDE#22) := by decide +kernel

/-- R47: `uuuuuuuu 10 xxxxxxxxxxxxxx hhhhhhhh`, 11111111 10 00000000000001 01010101. -/
theorem test_decode_rxcrit :
    decodeBytes .frameIn [0b11111111#8, 0b10000000#8, 0b00000001#8, 0b01010101#8] =
      .ok (.rxcrit 0xFF#8 1#14 0x55#8) := by decide +kernel

/-- R48: `xxxxxxxx 11 xxxxxxxxxxxxxxxxxxxxxx`, 00010010 11 0000000000000000000001. -/
theorem test_decode_rxrsvd :
    decodeBytes .frameIn [0b00010010#8, 0b11000000#8, 0b00000000#8, 0b00000001#8] =
      .ok (.rxrsvd 0x12#8 1#22) := by decide +kernel

/-- The encoder gives the words the layouts give. -/
theorem test_encode_words :
    encode (.txWrite 0x3F#8 0b0001001#7 1#1 0x5678#16) = (.frameOut .write, [0x3F#8, 0x13#8, 0x56#8, 0x78#8]) ∧
    encode (.rx16 0x69#8 3#5 1#1 0x1234#16) = (.frameIn, [0x69#8, 0x07#8, 0x12#8, 0x34#8]) ∧
    encode (.rx22 0x8F#8 0x2ABCDE#22) = (.frameIn, [0x8F#8, 0x6A#8, 0xBC#8, 0xDE#8]) ∧
    encode (.rxcrit 0xA5#8 0x3FFF#14 0xFF#8) = (.frameIn, [0xA5#8, 0xBF#8, 0xFF#8, 0xFF#8]) ∧
    encode .classify = (.op, [5#8]) := by decide +kernel

/-! ### The table's own numbering -/

/-- opcode_table.json, "match" of each row (RX16 with a status, log 7). -/
theorem test_table_words :
    decodeTableWord 8 0 = some .crc ∧ decodeTableWord 8 5 = some .classify ∧ decodeTableWord 8 6 = none ∧
    decodeTableWord 32 0x00000000 = some (.txRead 0#8 0#7 0#1 0#16) ∧
    decodeTableWord 32 0x00010000 = some (.txWrite 0#8 0#7 1#1 0#16) ∧
    decodeTableWord 32 0x00020000 = some (.rx16 0#8 1#5 0#1 0#16) ∧
    decodeTableWord 32 0x00400000 = some (.rx22 0#8 0#22) ∧
    decodeTableWord 32 0x00800000 = some (.rxcrit 0#8 0#14 0#8) ∧
    decodeTableWord 32 0x00C00000 = some (.rxrsvd 0#8 0#22) := by decide +kernel

/-! ### The checksum -/

/-- 95_test_vectors.md 2.1, set SMB. -/
def smb : CrcParams := { poly := 0x07#8, init := 0#8, refIn := false, refOut := false, xorOut := 0#8, feed := .f210 }

/-- 95_test_vectors.md 2.1, set MAX. -/
def max : CrcParams := { poly := 0x31#8, init := 0#8, refIn := true, refOut := true, xorOut := 0#8, feed := .f210 }

/-- 95_test_vectors.md 2.1: the ASCII string "123456789". -/
def check : List Byte := [0x31#8, 0x32#8, 0x33#8, 0x34#8, 0x35#8, 0x36#8, 0x37#8, 0x38#8, 0x39#8]

/-- 95_test_vectors.md 2.1: the check row, sets REF, SMB, MAX, RIN, ROUT. -/
theorem test_crc8Bytes_check :
    crc8Bytes Params.ref.crc check = 0x4B#8 ∧ crc8Bytes smb check = 0xF4#8 ∧ crc8Bytes max check = 0xA1#8 ∧
    crc8Bytes { Params.ref.crc with refIn := true } check = 0x16#8 ∧
    crc8Bytes { Params.ref.crc with refOut := true } check = 0xD2#8 := by decide +kernel

/-- 95_test_vectors.md 2.1: intermediate registers of 01 BE EF. -/
theorem test_crcByte_trace :
    crcByte Params.ref.crc 0xFF#8 0x01#8 = 0xD9#8 ∧ crcByte Params.ref.crc 0xD9#8 0xBE#8 = 0xC7#8 ∧
    crcByte Params.ref.crc 0xC7#8 0xEF#8 = 0x6F#8 := by decide +kernel

/-- 95_test_vectors.md 2.2: sets REF, SMB, MAX, SWP. -/
theorem test_crc8_payloads :
    crc8 Params.ref.crc 0x000000#24 = 0xF1#8 ∧ crc8 Params.ref.crc 0x01BEEF#24 = 0x90#8 ∧
    crc8 Params.ref.crc 0x800000#24 = 0x31#8 ∧
    crc8 smb 0x123456#24 = 0x7C#8 ∧ crc8 max 0x123456#24 = 0x15#8 ∧
    crc8 { Params.ref.crc with feed := .f012 } 0x123456#24 = 0x97#8 := by decide +kernel

/-- R59: first and last table entries given for 0x1D. -/
theorem test_crcTable :
    (crcTable 0x1D#8).take 8 = [0x00#8, 0x1D#8, 0x3A#8, 0x27#8, 0x74#8, 0x69#8, 0x4E#8, 0x53#8] ∧
    (crcTable 0x1D#8).drop 252 = [0xE3#8, 0xFE#8, 0xD9#8, 0xC4#8] := by decide +kernel

/-- 95_test_vectors.md 2.2: `VERIFY_CRC`. -/
theorem test_crcOkFlag :
    crcOkFlag Params.ref.crc 0x9001BEEF#32 = 1#1 ∧ crcOkFlag Params.ref.crc 0x9101BEEF#32 = 0#1 ∧
    crcOkFlag Params.ref.crc 0x9001BEEE#32 = 0#1 ∧ crcOkFlag Params.ref.crc 0x86800055#32 = 1#1 := by decide +kernel

/-! ### The encoder -/

/-- 95_test_vectors.md 2.4, instance ALT. -/
def alt : Params :=
  { Params.ref with
    polyPred := 0x06, crcInit := 0#8, crcXorOut := 0#8, rwWrite := 0#1,
    addrHi := fun a => a.extractLsb' 0 7, rdLow := fun _ => 0#16 }

/-- 95_test_vectors.md 2.5 and 2.4 (ALT). -/
theorem test_encodeReadFrame :
    encodeReadFrame Params.ref 0x0200#16 = 0x6A020200#32 ∧ encodeReadFrame Params.ref 0xFFFF#16 = 0xF5FEFFFF#32 ∧
    encodeReadFrame alt 0x0104#16 = 0x3A090000#32 := by decide +kernel

/-- 95_test_vectors.md 2.4. -/
theorem test_encodeWriteFrame :
    encodeWriteFrame Params.ref 0x1234#16 0x5678#16 = 0x3F135678#32 ∧
    encodeWriteFrame Params.ref 0xC000#16 0x1234#16 = 0xCCC11234#32 ∧
    encodeWriteFrame alt 0x007F#16 0x0001#16 = 0x47FE0001#32 := by decide +kernel

/-! ### The decoder and the classifier -/

/-- 95_test_vectors.md 2.6: S4, W1, K2, X1. -/
theorem test_decodeReply :
    decodeReply Params.ref 0x69071234#32 = .reply16 3#5 (some .writeToReadOnly) 1#1 0x1234#16 0x69#8 ∧
    decodeReply Params.ref 0x8F6ABCDE#32 = .reply22 0x2ABCDE#22 0x8F#8 ∧
    decodeReply Params.ref 0xFF800055#32 = .critical 0x55#8 ∧
    decodeReply Params.ref 0x12C00000#32 = .reserved := by decide +kernel

/-- 95_test_vectors.md 2.6: A1, A2, W5, M2 with either `verify`. -/
theorem test_classifyReply_data :
    classifyReply Params.ref 0x87000102#32 1#1 = .ok 0x00000102#32 ∧
    classifyReply Params.ref 0x86000102#32 1#1 = .err .crcError .localMismatch ∧
    classifyReply Params.ref 0x86000102#32 0#1 = .ok 0x00000102#32 ∧
    classifyReply Params.ref 0xBA7FFFFF#32 1#1 = .ok 0x003FFFFF#32 ∧
    classifyReply Params.ref 0x87400102#32 0#1 = .ok 0x00000102#32 := by decide +kernel

/-- 95_test_vectors.md 2.6, 2.7: S2 both ways, S3, S6, K3, X2. -/
theorem test_classifyReply_errors :
    classifyReply Params.ref 0xF3020000#32 1#1 = .err .crcError .localMismatch ∧
    classifyReply Params.ref 0xF3020000#32 0#1 = .err .spiFrameError (.status 1#5) ∧
    classifyReply Params.ref 0xF7040000#32 1#1 = .err .crcError (.status 2#5) ∧
    classifyReply Params.ref 0xFD080000#32 1#1 = .err .registerError (.status 4#5) ∧
    classifyReply Params.ref 0x86800055#32 1#1 = .err .hardwareError (.health 0x55#8) ∧
    classifyReply Params.ref 0x51C00000#32 1#1 = .err .spiFrameError .none := by decide +kernel

/-! ### Wire order -/

/-- R27, R28: bit 31 first, `B3` first. -/
theorem test_wire_order :
    (wireBits 0x80000001#32).head? = some true ∧ (wireBits 0x40000000#32).take 2 = [false, true] ∧
    ofWireBits (wireBits 0x9001BEEF#32) = 0x9001BEEF#32 ∧
    frameBytes 0x9001BEEF#32 = [0x90#8, 0x01#8, 0xBE#8, 0xEF#8] := by decide +kernel

/-! ### One step -/

/-- A state whose program is the given lines. -/
def withProgram (lines : List HostLine) : State := { State.reset with program := lines }

/-- Operands of which only the frame matters. -/
def frameOperands (src : FrameSource) : Operands := { address := 0, value := 0, payload := 0, frameIn := src }

/-- R51: a reserved selector is refused. -/
theorem test_step_refuses_reserved_selector :
    step (withProgram [.invoke 6#3 (frameOperands (.given 0)) none]) = .refused (.reservedSelector 6#3) := rfl

/-- R108: a second transmit frame while one is in flight is refused. -/
theorem test_step_refuses_second_transmit :
    step { withProgram [.transmit .read 0xC9000104#32] with
      xfer := { Xfer.reset with inFlight := some 0xF1000000#32 } } = .refused .exchangeInFlight := rfl

/-- R32, U13: invoking `CLASSIFY` for an exchange that returned an error is refused. -/
theorem test_step_refuses_missing_reply :
    step { withProgram [.invoke 5#3 (frameOperands .reply) none] with
      xfer := { Xfer.reset with result := some (.error .timeout) } } = .refused .noReplyFrame := rfl

/-- R29: the reply of an exchange is what `frame_in` shows next. -/
theorem test_step_receive_presents_frame :
    ∃ t, step (withProgram [.receive 0x87000102#32]) = .next t ∧ t.inp.frameIn = 0x87000102#32 :=
  ⟨_, rfl, by decide⟩

/-- R20: with no override, `verify` is the Device's flag, 0 after reset. -/
theorem test_step_verify_follows_device_flag :
    ∃ t, step (withProgram [.invoke 5#3 (frameOperands (.given 0x86000102#32)) none]) = .next t ∧
      t.inp.verify = 0#1 := ⟨_, rfl, by decide⟩

/-- R20: an override wins. -/
theorem test_step_verify_override :
    ∃ t, step (withProgram [.invoke 5#3 (frameOperands (.given 0x86000102#32)) (some 1#1)]) = .next t ∧
      t.inp.verify = 1#1 := ⟨_, rfl, by decide⟩

/-! ### Witnesses: for each obligation with hypotheses, inputs that meet them, per clause and at the boundaries.
Frames are vectors of 95_test_vectors.md 2.6, for REF. -/

/-- A state with this frame on `frame_in` and nothing in flight. -/
def framed (f : Frame) : State := { State.reset with inp := { resetInPorts with frameIn := f } }

/-- A state with an exchange in flight. -/
def busy (lines : List HostLine) : State :=
  { withProgram lines with xfer := { Xfer.reset with inFlight := some 0xF1000000#32 } }

theorem witness_DecodeTakesApartByReplyMode :
    (framed 0x87000102#32).inp.frameIn.extractLsb' 22 2 = 0b00#2 ∧
    (framed 0x8F6ABCDE#32).inp.frameIn.extractLsb' 22 2 = 0b01#2 ∧
    (framed 0xFF800055#32).inp.frameIn.extractLsb' 22 2 = 0b10#2 ∧
    (framed 0x12C00000#32).inp.frameIn.extractLsb' 22 2 = 0b11#2 := by decide

theorem witness_TransmitFramesStartAnExchange : State.reset.xfer.inFlight = none := rfl

theorem witness_SecondTransmitIsRefused : (busy []).xfer.inFlight = some 0xF1000000#32 := rfl

theorem witness_ReceiveFramesArePresented :
    (∃ crc status rwEcho data, Instr.rx16 0#8 0#5 0#1 0#16 = .rx16 crc status rwEcho data ∧
      0#32 = rx16Word crc status rwEcho data) ∧
    (∃ crc wide, Instr.rx22 0#8 0#22 = .rx22 crc wide ∧ 0x00400000#32 = rx22Word crc wide) ∧
    (∃ undef ignored health, Instr.rxcrit 0#8 0#14 0#8 = .rxcrit undef ignored health ∧
      0x00800000#32 = rxcritWord undef ignored health) ∧
    (∃ high low, Instr.rxrsvd 0#8 0#22 = .rxrsvd high low ∧ 0x00C00000#32 = rxrsvdWord high low) :=
  ⟨⟨_, _, _, _, rfl, rfl⟩, ⟨_, _, rfl, rfl⟩, ⟨_, _, _, rfl, rfl⟩, ⟨_, _, rfl, rfl⟩⟩

/-- With `verify = 0`, and with `verify = 1` on words that verify under the machine's own parameters. -/
theorem witness_ArrivedReplyIsJudgedByItsLayout :
    State.reset.inp.verify = 0#1 ∧
    (∀ status : BitVec 5, ∃ crc, crcMatches Config.params.crc (rx16Word crc status 0#1 0#16) = true) ∧
    (∃ crc, crcMatches Config.params.crc (rx22Word crc 0#22) = true) ∧ (0#5 = 0#5 ∧ (31#5 : BitVec 5) ≠ 0#5) :=
  ⟨rfl, fun _ => ⟨_, by rw [crcMatches_iff, rx16Word, crcField_joinFrame, payloadField_joinFrame]⟩,
    ⟨_, by rw [crcMatches_iff, rx22Word, crcField_joinFrame, payloadField_joinFrame]⟩, rfl, by decide⟩

/-- The clauses of a failing comparison: `verify = 1`, and a CRC field that is not the checksum. -/
theorem witness_ArrivedReplyIsJudgedByItsLayout_mismatch :
    { State.reset with inp := { resetInPorts with verify := 1#1 } }.inp.verify = 1#1 ∧
    (∃ crc, crcMatches Config.params.crc (rx16Word crc 0#5 0#1 0#16) = false) ∧
    ∃ crc, crcMatches Config.params.crc (rx22Word crc 0#22) = false := by
  have h : ∀ p, ∃ crc, crcMatches Config.params.crc (joinFrame crc p) = false := fun p =>
    ⟨crc8 Config.params.crc p ^^^ 1#8, by
      rw [← Bool.not_eq_true, crcMatches_iff, crcField_joinFrame, payloadField_joinFrame]
      generalize crc8 Config.params.crc p = b; revert b; decide⟩
  exact ⟨rfl, h _, h _⟩

theorem witness_EncodeInvertsDecode :
    decodeBytes .op [4#8] = .ok .decode ∧ decodeBytes (.frameOut .read) [0#8, 0#8, 0#8, 0#8] = .ok (.txRead 0 0 0 0) ∧
    decodeBytes .frameIn [0xFF#8, 0xFF#8, 0xFF#8, 0xFF#8] = .ok (.rxrsvd 0xFF#8 0x3FFFFF#22) := by decide

theorem witness_ReservedSelectorsAreRefused :
    (withProgram [.invoke 6#3 (frameOperands .reply) none]).program = [.invoke 0b110#3 (frameOperands .reply) none] ∧
    (withProgram [.invoke 7#3 (frameOperands .reply) none]).program = [.invoke 0b111#3 (frameOperands .reply) none] :=
  ⟨rfl, rfl⟩

theorem witness_EncodersBuildTheWellFormedTransmitRows :
    (Instr.txWrite 0x90#8 (Params.ref.addrHi 0x0104#16) 1#1 0xBEEF#16).wellFormed Params.ref = true ∧
    (Instr.txRead 0xC9#8 (Params.ref.addrHi 0x0104#16) 0#1 (Params.ref.rdLow 0x0104#16)).wellFormed Params.ref = true := by
  decide +kernel

/-- Both sides of the equivalence, `k` at 0 and 23. -/
theorem witness_SingleBitDetectionIffPolyNonzero :
    Params.ref.crc.poly ≠ 0x00#8 ∧ crcMatches Params.ref.crc 0x9001BEEF#32 = true ∧ 0 < 24 ∧ 23 < 24 := by decide +kernel

theorem witness_PolynomialIsAnyByteButZero : 0x01#8 ≠ 0x00#8 ∧ 0xFF#8 ≠ 0x00#8 := by decide

/-- `k` at 24 and 31; two payloads of one checksum; an odd and an even polynomial. -/
theorem witness_ChecksumIsAffine :
    crcMatches Params.ref.crc 0x9001BEEF#32 = true ∧ (24 ≤ 24 ∧ 24 < 32) ∧ (24 ≤ 31 ∧ 31 < 32) ∧
    Params.ref.crc.poly.getLsbD 0 = true := by decide +kernel

/-- The polynomial x^8 + 1 makes the checksum the xor of the three bytes, which is onto. -/
theorem witness_ChecksumNeverIdentifiesItsPayload :
    Function.Surjective (crc8 { smb with poly := 0x01#8 }) ∧ Params.ref.crc.poly.getLsbD 0 = true :=
  ⟨fun b => ⟨b.setWidth 24, by revert b; decide +kernel⟩, by decide⟩

theorem witness_SerialRegisterComputesTheChecksum :
    Params.ref.crc.refIn = false ∧ Params.ref.crc.refOut = false ∧ crc8Serial Params.ref.crc 0x01BEEF#24 = 0x90#8 ∧
    crc8Table Params.ref.crc 0x01BEEF#24 = 0x90#8 := by decide +kernel

theorem witness_EncodedFramesVerify :
    (Instr.encodeRead = .encodeRead ∨ Instr.encodeRead = .encodeWrite) ∧
    (Instr.encodeWrite = .encodeRead ∨ Instr.encodeWrite = .encodeWrite) := by decide

/-- The parameters REF and REF with another address packing share the CRC; the frames share the low 24 bits. -/
theorem witness_TransmitFrameDeterminesItsRequest :
    Params.ref.crc = { Params.ref with addrHi := fun _ => 0#7 }.crc ∧
    (∃ a v, 0x9001BEEF#32 = encodeReadFrame Params.ref a ∨ 0x9001BEEF#32 = encodeWriteFrame Params.ref a v) ∧
    (∃ a v, 0x9001BEEF#32 = encodeReadFrame { Params.ref with addrHi := fun _ => 0#7 } a ∨
      0x9001BEEF#32 = encodeWriteFrame { Params.ref with addrHi := fun _ => 0#7 } a v) :=
  ⟨rfl, ⟨0x0104#16, 0xBEEF#16, .inr (by decide +kernel)⟩, ⟨0x8000#16, 0xBEEF#16, .inr (by decide +kernel)⟩⟩

theorem witness_DecodeReadsItsLayoutAndNoMore :
    (0xFF800055#32).extractLsb' 22 2 = 0b10#2 ∧ (0x00BFFF55#32).extractLsb' 22 2 = 0b10#2 ∧
    (0xFF800055#32).extractLsb' 0 8 = (0x00BFFF55#32).extractLsb' 0 8 ∧
    (0x12C00000#32).extractLsb' 22 2 = 0b11#2 ∧
    (∃ status statusKind rwEcho data crc,
      decodeReply Params.ref 0x87000102#32 = .reply16 status statusKind rwEcho data crc) ∧
    (∃ wide crc, decodeReply Params.ref 0x8F6ABCDE#32 = .reply22 wide crc) ∧
    (Params.ref.addrHi 0x3FFF#16).extractLsb' 5 2 = 0b00#2 :=
  ⟨by decide, by decide, by decide, by decide, ⟨_, _, _, _, _, rfl⟩, ⟨_, _, rfl⟩, by decide⟩

/-- The four address classes of R53 at their edges. -/
theorem witness_RoundTripHoldsExactlyUnderItsConditions :
    Params.ref.addrHi 0x01FF#16 = 0#7 ∧
    ((Params.ref.addrHi 0x3FFF#16).extractLsb' 5 2 = 0b00#2 ∧ (Params.ref.addrHi 0x3FFF#16).extractLsb' 0 5 ≠ 0#5) ∧
    (Params.ref.addrHi 0x4000#16).extractLsb' 5 2 = 0b01#2 ∧ (Params.ref.addrHi 0x7FFF#16).extractLsb' 5 2 = 0b01#2 ∧
    (Params.ref.addrHi 0x8000#16).getLsbD 6 = true ∧ (0x3FFF#16).toNat < 0x4000 := by decide

theorem witness_FailedVerificationIsNeverData :
    (0x86000102#32).extractLsb' 22 2 = 0b00#2 ∧ crcMatches Params.ref.crc 0x86000102#32 = false ∧
    (0x8E6ABCDE#32).extractLsb' 22 2 = 0b01#2 ∧ crcMatches Params.ref.crc 0x8E6ABCDE#32 = false := by decide +kernel

/-- Status 2 of REF, verifying and not. -/
theorem witness_NonzeroStatusIsNeverData :
    (0xF7040000#32).extractLsb' 22 2 = 0b00#2 ∧ (0xF7040000#32).extractLsb' 17 5 ≠ 0#5 ∧
    crcMatches Params.ref.crc 0xF7040000#32 = true ∧
    Params.ref.statusKind ((0xF7040000#32).extractLsb' 17 5) = some .crcError ∧
    crcMatches Params.ref.crc 0xF6040000#32 = false ∧ (0xF6040000#32).extractLsb' 17 5 ≠ 0#5 := by decide +kernel

theorem witness_CriticalReplyIsAlwaysHardwareError :
    (framed 0x86800055#32).inp.frameIn.extractLsb' 22 2 = 0b10#2 := by decide

theorem witness_ReservedReplyIsNeverData :
    (framed 0x51C00000#32).inp.frameIn.extractLsb' 22 2 = 0b11#2 := by decide

theorem witness_ErrorOutcomesHaveExactlyTheirCauses : (0x8F6ABCDE#32).extractLsb' 22 2 = 0b01#2 := by decide

/-- A verifying reply of each mode, `k` at 0, 15, 16, 17, 21, 22, 23, 24 and 31, with status 0 and not, and the
status that bit 17 clears; and a critical-fault reply whose bit 23 flips into data. -/
theorem witness_OneFlippedBitIsNeverData :
    ((0x87000102#32).extractLsb' 22 2 = 0b00#2 ∧ crcMatches Params.ref.crc 0x87000102#32 = true) ∧
    ((0x8F6ABCDE#32).extractLsb' 22 2 = 0b01#2 ∧ crcMatches Params.ref.crc 0x8F6ABCDE#32 = true) ∧
    ((0xF3020000#32).extractLsb' 22 2 = 0b00#2 ∧ (0xF3020000#32).extractLsb' 17 5 = 1#5 <<< (17 - 17)) ∧
    ((0xF7040000#32).extractLsb' 22 2 = 0b00#2 ∧ crcMatches Params.ref.crc 0xF7040000#32 = true ∧
      (0xF7040000#32).extractLsb' 17 5 ≠ 0#5 ∧ (0xF7040000#32).extractLsb' 17 5 ≠ 1#5 <<< (21 - 17)) ∧
    (0 ≤ 15 ∧ 15 ≤ 15 ∧ 17 ≤ 17 ∧ 21 ≤ 21 ∧ 22 < 32 ∧ 23 < 32 ∧ 24 ≤ 24 ∧ 24 ≤ 31 ∧ 31 < 32) ∧
    ((0x87800102#32).extractLsb' 22 2 = 0b10#2 ∧
      classifyReply Params.ref (0x87800102#32 ^^^ (1#32 <<< 23)) 1#1 = .ok 0x102#32) := by decide +kernel

theorem witness_OkValueIsZeroExtendedData :
    classifyReply Params.ref 0x87000102#32 1#1 = .ok 0x102#32 ∧
    classifyReply Params.ref 0x8F6ABCDE#32 1#1 = .ok 0x2ABCDE#32 := by decide +kernel

theorem witness_KindPortsCarryTheListedCodes :
    (∃ t, exec .classify (framed 0x86800055#32) = .next t ∧ t.out.outOk = 0#1) ∧
    (framed 0x69071234#32).inp.frameIn.extractLsb' 22 2 = 0b00#2 := ⟨⟨_, rfl, rfl⟩, by decide⟩

theorem witness_ClassifyAgreesWithDecodeAndVerify :
    ∃ t, exec .classify (framed 0x8F6ABCDE#32) = .next t ∧ t.out.outOk = 1#1 := ⟨_, rfl, rfl⟩

/-- Equal payloads beside different values, and both answer. -/
theorem witness_EqualOperandsGiveEqualResults :
    operandsAgree .crc resetInPorts { resetInPorts with value := 1#16 } ∧
    operandsAgree .classify resetInPorts { resetInPorts with address := 0xFFFF#16 } ∧
    (∃ t, exec .crc State.reset = .next t) ∧ ∃ t, exec .crc (framed 1#32) = .next t :=
  ⟨rfl, ⟨rfl, rfl⟩, ⟨_, rfl⟩, ⟨_, rfl⟩⟩

theorem witness_DeviceBitsReachNoInstruction :
    (∃ t, exec .decode State.reset = .next t) ∧ exec (.txRead 0 0 0 0) (busy []) = .refused .exchangeInFlight :=
  ⟨⟨_, rfl⟩, rfl⟩

theorem witness_OnlyASecondTransmitIsEverRefused :
    exec (.txRead 0 0 0 0) (busy []) = .refused .exchangeInFlight ∧
    exec (.txWrite 0 0 1 0) (busy []) = .refused .exchangeInFlight := ⟨rfl, rfl⟩

/-- A state with a reply in hand. -/
def replied (lines : List HostLine) : State :=
  { withProgram lines with xfer := { Xfer.reset with result := some (.reply 0x87000102#32) } }

theorem witness_StepRunsTheDecodedInstruction :
    (decodeBytes .op [(5#3).setWidth 8] = .ok .classify ∧
      (frameOperands (.given 0x87000102#32)).frameIn = .given 0x87000102#32) ∧
    ((frameOperands .reply).frameIn = .reply ∧ (replied []).xfer.inFlight = none ∧
      (replied []).xfer.result = some (.reply 0x87000102#32)) ∧
    decodeBytes (.frameOut .write) (frameBytes 0x9001BEEF#32) = .ok (.txWrite 0x90#8 0#7 1#1 0xBEEF#16) ∧
    decodeBytes .frameIn (frameBytes 0x87000102#32) = .ok (.rx16 0x87#8 0#5 0#1 0x0102#16) :=
  ⟨⟨by decide, rfl⟩, ⟨rfl, rfl, rfl⟩, by decide, by decide⟩

theorem witness_NoReplyFrameNoInvocation :
    (frameOperands .reply).frameIn = .reply ∧
    { Xfer.reset with result := some (.error .timeout) }.result = some (.error .timeout) ∧
    Xfer.reset.result = none ∧ (busy []).xfer.inFlight = some 0xF1000000#32 ∧
    (withProgram [.invoke 4#3 (frameOperands .reply) none]).program = [.invoke 0b100#3 (frameOperands .reply) none] ∧
    (withProgram [.invoke 3#3 (frameOperands .reply) none]).program = [.invoke 0b011#3 (frameOperands .reply) none] :=
  ⟨rfl, rfl, rfl, rfl, rfl, rfl⟩

/-- The Device's flag on, no override; and an override against it. -/
theorem witness_VerifyIsOverrideOrDeviceFlag :
    (∃ t, step { withProgram [.invoke 0#3 (frameOperands (.given 0)) none] with
      device := { Device.reset with crcEnabled := true } } = .next t ∧ t.inp.verify = 1#1) ∧
    ∃ t, step { withProgram [.invoke 0#3 (frameOperands (.given 0)) (some 0#1)] with
      device := { Device.reset with crcEnabled := true } } = .next t ∧ t.inp.verify = 0#1 :=
  ⟨⟨_, rfl, rfl⟩, ⟨_, rfl, rfl⟩⟩

theorem witness_ProgramRunsInOrder :
    State.reset.program = [] ∧ ∃ t, step (withProgram [.receive 0#32, .receive 1#32]) = .next t ∧
      t.program = [.receive 1#32] := ⟨rfl, _, rfl, rfl⟩

theorem witness_HostEventsChangeOnlyTheirOwn :
    ((busy [.transportError .failure]).program = [.transportError .failure] ∧
      (busy [.transportError .failure]).xfer.inFlight = some 0xF1000000#32) ∧
    ((withProgram [.transportError .failure]).program = [.transportError .failure] ∧
      (withProgram [.transportError .failure]).xfer.inFlight = none) ∧
    (withProgram [.device Device.reset]).program = [.device Device.reset] := ⟨⟨rfl, rfl⟩, ⟨rfl, rfl⟩, rfl⟩

/-- R86, log 10: an error of another Transport Port call leaves the reply in hand, which can still be decoded. -/
theorem test_step_stray_error_keeps_reply :
    ∃ t, step (replied [.transportError .failure, .invoke 4#3 (frameOperands .reply) none]) = .next t ∧
      ∃ u, step t = .next u ∧ u.inp.frameIn = 0x87000102#32 := ⟨_, rfl, _, rfl, rfl⟩

/-- Under way: a step that leaves the exchange so, and two that end it. -/
theorem witness_ExchangeRunsToCompletion :
    (busy []).xfer.inFlight = some 0xF1000000#32 ∧
    (∃ t, step (busy []) = .next t) ∧ (∃ t, step (busy [.receive 0#32]) = .next t) ∧
    ∃ t, step (busy [.transportError .timeout]) = .next t := ⟨rfl, ⟨_, rfl⟩, ⟨_, rfl⟩, ⟨_, rfl⟩⟩

/-- The pairing is one of the two, but not known which (log 12); the reply is data whatever the parameters. -/
theorem witness_ExchangeDeliversItsReply :
    (withProgram [.transmit .read 0xC9000104#32, .receive 0x00400001#32,
      .invoke 5#3 (frameOperands .reply) (some 0#1)]).xfer.inFlight = none ∧
    (frameOperands .reply).frameIn = .reply ∧
    (Config.replyPairing = .sameExchange ∨ Config.replyPairing = .nextExchange) ∧
    classifyReply Config.params 0x00400001#32 0#1 = .ok 1#32 ∧
    classifyReply Config.params 0x00800055#32 0#1 = .err .hardwareError (.health 0x55#8) :=
  ⟨rfl, rfl, by cases Config.replyPairing <;> simp, rfl, rfl⟩

/-- A state with the invariant, and a step from it. -/
theorem witness_StepKeepsTheExchangeCoherent :
    (busy [.receive 0#32]).Inv ∧ ∃ t, step (busy [.receive 0#32]) = .next t := ⟨⟨rfl, rfl⟩, _, rfl⟩

theorem witness_FramesTravelMostSignificantBitFirst : 0 < 32 ∧ 31 < 32 := by decide

/-- Two exchanges, of which the second fails, and what comes before it. -/
def twoExchanges : List Exchange :=
  [⟨.read, 0xC9000104#32, .reply 0x87000102#32⟩, ⟨.write, 0x9001BEEF#32, .error .timeout⟩]

theorem witness_TransferManyIsSequential :
    (withProgram (transferMany twoExchanges ++ [])).xfer.inFlight = none ∧
    (withProgram (transferMany twoExchanges ++ [])).program = transferMany twoExchanges ++ [] ∧
    twoExchanges[0]? = some ⟨.read, 0xC9000104#32, .reply 0x87000102#32⟩ ∧
    twoExchanges[1]? = some ⟨.write, 0x9001BEEF#32, .error .timeout⟩ ∧
    transferManyResult twoExchanges = some .timeout ∧ transferManyResult (twoExchanges.take 1) = none :=
  ⟨rfl, rfl, rfl, rfl, rfl, rfl⟩

end Sys2Proof.Tests
end

section
/-! PROOFS. The polynomial of a parameter record (00_scope.md R7): its value is `polyPred + 1`, without wrap. -/

namespace Sys2Proof

/-- R7: `polyPred` is `CRC_POLY` less one; `polyPred < 255`, so the byte does not overflow. -/
@[simp] theorem Params.toNat_crcPoly (P : Params) : P.crcPoly.toNat = P.polyPred.val + 1 := by
  have h : P.polyPred.val + 1 < 2 ^ 8 := by omega
  rw [crcPoly, BitVec.toNat_ofNat, Nat.mod_eq_of_lt h]

theorem Params.crcPoly_ne_zero (P : Params) : P.crcPoly ≠ 0x00#8 := by
  intro h
  have hval : P.polyPred.val + 1 = 0 := by rw [← toNat_crcPoly, h]; rfl
  exact Nat.succ_ne_zero _ hval

/-- The record is REF with `polyPred` one less than the byte, which is in range since the byte is not zero. -/
theorem Params.exists_crcPoly_eq {b : Byte} (hb : b ≠ 0x00#8) : ∃ P : Params, P.crcPoly = b := by
  have hpos : 0 < b.toNat := Nat.pos_of_ne_zero fun h => hb (BitVec.eq_of_toNat_eq h)
  have hlt : b.toNat - 1 < 255 := by have := b.isLt; omega
  refine ⟨{ Params.ref with polyPred := ⟨b.toNat - 1, hlt⟩ }, BitVec.eq_of_toNat_eq ?_⟩
  rw [toNat_crcPoly]
  exact Nat.sub_add_cancel hpos

/-- Settles O18: the polynomial's value is `polyPred + 1`, which runs through 1 to 255. -/
theorem polynomialIsAnyByteButZero : Obligations.PolynomialIsAnyByteButZero :=
  ⟨Params.crcPoly_ne_zero, fun _ => Params.exists_crcPoly_eq⟩

end Sys2Proof
end

section
/-! PROOFS. The ports of an operation (10_state.md R15 to R17): what a write puts on the valid ports does not
depend on the draws it is laid over. -/

namespace Sys2Proof.Machine

/-- A view fixes every `view_*` port of its own case; the case is read from `view_kind`. -/
theorem writeView_resultsAgree (v : ReplyView) (p q : OutPorts) :
    resultsAgree .decode (writeView v p) (writeView v q) := by
  cases v with
  | reply16 status statusKind rwEcho data crc =>
    have hkind : (0b00#2) ≠ 2#2 := by decide
    exact ⟨rfl, fun _ => ⟨rfl, rfl, rfl⟩, fun _ => ⟨rfl, rfl⟩, fun h => absurd h hkind⟩
  | reply22 wide crc =>
    have hkind : (0b01#2) ≠ 0#2 ∧ (0b01#2) ≠ 2#2 := by decide
    exact ⟨rfl, fun h => absurd h hkind.1, fun _ => ⟨rfl, rfl⟩, fun h => absurd h hkind.2⟩
  | critical health =>
    have hkind : (0b10#2) ≠ 0#2 ∧ ¬((0b10#2) = 0#2 ∨ (0b10#2) = 1#2) := by decide
    exact ⟨rfl, fun h => absurd h hkind.1, fun h => absurd h hkind.2, fun _ => rfl⟩
  | reserved =>
    have hkind : (0b11#2) ≠ 0#2 ∧ ¬((0b11#2) = 0#2 ∨ (0b11#2) = 1#2) ∧ (0b11#2) ≠ 2#2 := by decide
    exact ⟨rfl, fun h => absurd h hkind.1, fun h => absurd h hkind.2.1, fun h => absurd h hkind.2.2⟩

/-- A critical view fixes `view_health`, and only a critical view shows its mode. -/
theorem writeViewKind_viewHealth_of_critical (v : ReplyView) (p q : OutPorts)
    (h : (writeViewKind v p).viewKind = 2#2) : (writeViewKind v p).viewHealth = (writeViewKind v q).viewHealth := by
  rw [writeViewKind_viewKind] at h
  cases v with
  | critical health => rfl
  | reply16 status statusKind rwEcho data crc => exact absurd h (show ¬(0b00#2) = 2#2 by decide)
  | reply22 wide crc => exact absurd h (show ¬(0b01#2) = 2#2 by decide)
  | reserved => exact absurd h (show ¬(0b11#2) = 2#2 by decide)

/-- An outcome fixes `out_ok` and the ports of its own case, and the view beneath it the view ports. -/
theorem deliver_resultsAgree (o : CodecOutcome) (v : ReplyView) (p q : OutPorts) :
    resultsAgree .classify (deliver o (writeViewKind v p)) (deliver o (writeViewKind v q)) := by
  have hview : (deliver o (writeViewKind v p)).viewKind = (deliver o (writeViewKind v q)).viewKind := by simp
  have hhealth : (deliver o (writeViewKind v p)).viewKind = 2#2 →
      (deliver o (writeViewKind v p)).viewHealth = (deliver o (writeViewKind v q)).viewHealth := by
    simpa only [deliver_viewKind, deliver_viewHealth] using writeViewKind_viewHealth_of_critical v p q
  cases o with
  | ok value =>
    have hok : (1#1) ≠ 0#1 := by decide
    exact ⟨rfl, hview, fun _ => rfl, fun h => absurd h hok, hhealth⟩
  | err kind info =>
    have hok : (0#1) ≠ 1#1 := by decide
    exact ⟨rfl, hview, fun h => absurd h hok, fun _ => ⟨rfl, rfl⟩, hhealth⟩

end Sys2Proof.Machine

namespace Sys2Proof

open Machine

/-- Settles O37: the ports an operation writes are a function of its operands, and the draws beneath them reach
no valid port. -/
theorem equalOperandsGiveEqualResults : Obligations.EqualOperandsGiveEqualResults := by
  intro i s s' t t' hop h h'
  cases i with
  | crc => cases h; cases h'; exact congrArg (crc8 Config.params.crc) hop
  | verifyCrc => cases h; cases h'; exact congrArg (crcOkFlag Config.params.crc) hop
  | encodeRead => cases h; cases h'; exact congrArg (encodeReadFrame Config.params) hop
  | encodeWrite => cases h; cases h'; exact congrArg₂ (encodeWriteFrame Config.params) hop.1 hop.2
  | decode =>
    cases h; cases h'
    have hframe : s.inp.frameIn = s'.inp.frameIn := hop
    rw [drive_out, drive_out, hframe]
    exact writeView_resultsAgree _ _ _
  | classify =>
    cases h; cases h'
    obtain ⟨hframe, hverify⟩ := hop
    rw [drive_out, drive_out, hframe, hverify]
    exact deliver_resultsAgree _ _ _ _
  | txRead | txWrite | rx16 | rx22 | rxcrit | rxrsvd => trivial

end Sys2Proof
end

section
/-! PROOFS. The Device-owned bits and `verify` (10_state.md R19 to R22). -/

namespace Sys2Proof.Machine

variable {s t : State} {i : Instr}

/-- What an instruction is, in every state alike: a write of the output ports that depends on the input ports
alone, the start of an exchange, or the arrival of a reply. -/
theorem exec_uniform (i : Instr) :
    (∃ w : InPorts → OutPorts → OutPorts, ∀ s, exec i s = .next (s.drive (w s.inp))) ∨
    (∃ tx, ∀ s, exec i s = s.startExchange tx) ∨
    (∃ rx, ∀ s, exec i s = .next (s.receiveFrame rx)) := by
  cases i with
  | crc => exact .inl ⟨fun inp => writeCrc (crc8 Config.params.crc inp.payload), fun _ => rfl⟩
  | verifyCrc => exact .inl ⟨fun inp => writeCrcOk (crcOkFlag Config.params.crc inp.frameIn), fun _ => rfl⟩
  | encodeRead => exact .inl ⟨fun inp => writeFrame (encodeReadFrame Config.params inp.address), fun _ => rfl⟩
  | encodeWrite =>
    exact .inl ⟨fun inp => writeFrame (encodeWriteFrame Config.params inp.address inp.value), fun _ => rfl⟩
  | decode => exact .inl ⟨fun inp => writeView (decodeReply Config.params inp.frameIn), fun _ => rfl⟩
  | classify =>
    exact .inl ⟨fun inp p => deliver (classifyReply Config.params inp.frameIn inp.verify)
      (writeViewKind (decodeReply Config.params inp.frameIn) p), fun _ => rfl⟩
  | txRead => exact .inr (.inl ⟨_, fun _ => rfl⟩)
  | txWrite => exact .inr (.inl ⟨_, fun _ => rfl⟩)
  | rx16 => exact .inr (.inr ⟨_, fun _ => rfl⟩)
  | rx22 => exact .inr (.inr ⟨_, fun _ => rfl⟩)
  | rxcrit => exact .inr (.inr ⟨_, fun _ => rfl⟩)
  | rxrsvd => exact .inr (.inr ⟨_, fun _ => rfl⟩)

theorem startExchange_refused (tx : Frame) {r : Refusal} (h : s.startExchange tx = .refused r) :
    r = .exchangeInFlight ∧ ∃ u, s.xfer.inFlight = some u := by
  cases hx : s.xfer.inFlight with
  | none => rw [startExchange_of_idle tx hx] at h; cases h
  | some u => rw [startExchange_of_busy tx hx] at h; cases h; exact ⟨rfl, u, rfl⟩

theorem exec_keeps_device_program (h : exec i s = .next t) : t.device = s.device ∧ t.program = s.program := by
  obtain ⟨w, rfl⟩ | ⟨tx, -, rfl⟩ | ⟨rx, rfl⟩ := exec_next_cases h
  · exact ⟨drive_device s w, drive_program s w⟩
  · exact ⟨redraw_device s, redraw_program s⟩
  · exact ⟨receiveFrame_device s rx, receiveFrame_program s rx⟩

theorem exec_next_of_device (d : Device) (h : exec i s = .next t) :
    exec i { s with device := d } = .next { t with device := d } := by
  obtain ⟨w, he⟩ | ⟨tx, he⟩ | ⟨rx, he⟩ := exec_uniform i <;> rw [he] at h ⊢
  · cases h; rfl
  · obtain ⟨hidle, rfl⟩ := startExchange_next tx h
    exact startExchange_of_idle tx hidle
  · cases h; rfl

theorem exec_refused_of_device (d : Device) {r : Refusal} (h : exec i s = .refused r) :
    exec i { s with device := d } = .refused r := by
  obtain ⟨w, he⟩ | ⟨tx, he⟩ | ⟨rx, he⟩ := exec_uniform i <;> rw [he] at h ⊢
  · cases h
  · obtain ⟨rfl, u, hbusy⟩ := startExchange_refused tx h
    exact startExchange_of_busy tx hbusy
  · cases h

theorem exec_keeps_verify (h : exec i s = .next t) : t.inp.verify = s.inp.verify := by
  obtain ⟨w, rfl⟩ | ⟨tx, -, rfl⟩ | ⟨rx, rfl⟩ := exec_next_cases h
  · rw [drive_inp]
  · rw [redraw_inp]
  · rw [receiveFrame_inp]

/-- The fetch of an invocation refuses the line or runs some instruction on the inputs the line presents. -/
theorem fetchInvoke_cases (s : State) (op : BitVec 3) (operands : Operands) (override : Option Bit) :
    (∃ r, s.fetchInvoke op operands override = .refuse r) ∨
    ∃ i, s.fetchInvoke op operands override = .run i { s with inp := s.presentInputs op operands override } := by
  rw [State.fetchInvoke]
  split
  · exact .inl ⟨_, rfl⟩
  · split
    · exact .inl ⟨_, rfl⟩
    · exact .inr ⟨_, rfl⟩

/-- An invocation that answers has run some instruction on the inputs it presents. -/
theorem step_invoke_next {op : BitVec 3} {operands : Operands} {override : Option Bit} {rest : List HostLine}
    (hp : s.program = .invoke op operands override :: rest) (h : step s = .next t) :
    ∃ i, exec i { s with program := rest, inp := s.presentInputs op operands override } = .next t := by
  have hfetch : s.fetch = State.fetchInvoke op operands override { s with program := rest } := by
    rw [State.fetch, hp]; rfl
  obtain ⟨r, hrefuse⟩ | ⟨i, hrun⟩ := fetchInvoke_cases { s with program := rest } op operands override
  · rw [step_of_fetch_refuse (hfetch.trans hrefuse)] at h; cases h
  · exact ⟨i, (step_of_fetch_run (hfetch.trans hrun)).symm.trans h⟩

@[simp] theorem drivenVerify_some (v : Bit) (enabled : Bool) : drivenVerify (some v) enabled = v := rfl

@[simp] theorem drivenVerify_none (enabled : Bool) :
    drivenVerify none enabled = if enabled then 1#1 else 0#1 := by cases enabled <;> rfl

end Sys2Proof.Machine

namespace Sys2Proof

open Machine

/-- Settles O38: an instruction is the same write, start or arrival in every state, and none of the three looks
at the Device's bits. -/
theorem deviceBitsReachNoInstruction : Obligations.DeviceBitsReachNoInstruction :=
  ⟨fun _ _ _ => exec_keeps_device_program,
   fun _ _ d => ⟨fun _ => exec_next_of_device d, fun _ => exec_refused_of_device d⟩⟩

/-- Settles O42: the invocation drives `verify` by R20's rule and the instruction it runs keeps the port. -/
theorem verifyIsOverrideOrDeviceFlag : Obligations.VerifyIsOverrideOrDeviceFlag := by
  intro s t op operands override rest hp h
  obtain ⟨i, hexec⟩ := step_invoke_next hp h
  have hverify : t.inp.verify = drivenVerify override s.device.crcEnabled := exec_keeps_verify hexec
  constructor
  · rintro v rfl
    exact hverify.trans (drivenVerify_some v _)
  · rintro rfl
    exact hverify.trans (drivenVerify_none _)

/-- Settles O49: the reset state is written down field by field. -/
theorem resetLeavesTheStatedValues : Obligations.ResetLeavesTheStatedValues :=
  ⟨rfl, rfl, rfl, rfl, rfl⟩

end Sys2Proof
end

section
/-! PROOFS. The exchange boundary (20_memory.md R32, R33, R35): what a step can do to it, and its invariant. -/

namespace Sys2Proof.Machine

variable {s t : State} {i : Instr}

/-- Everything an answering instruction can do to the exchange boundary. -/
theorem exec_xfer_cases (h : exec i s = .next t) :
    t.xfer = s.xfer ∨
    (∃ tx, s.xfer.inFlight = none ∧ t.xfer = { s.xfer with inFlight := some tx }) ∨
    (∃ rx, t.xfer = s.xfer.completeReply Config.replyPairing rx) := by
  obtain ⟨w, rfl⟩ | ⟨tx, hidle, rfl⟩ | ⟨rx, rfl⟩ := exec_next_cases h
  · exact .inl (drive_xfer s w)
  · exact .inr (.inl ⟨tx, hidle, rfl⟩)
  · exact .inr (.inr ⟨rx, receiveFrame_xfer s rx⟩)

/-- Everything an answering step can do to the exchange boundary: leave it, start an exchange where none was
under way, end one with a reply, or take a transport error. -/
theorem step_xfer_cases (h : step s = .next t) :
    t.xfer = s.xfer ∨
    (∃ tx, s.xfer.inFlight = none ∧ t.xfer = { s.xfer with inFlight := some tx }) ∨
    (∃ rx, t.xfer = s.xfer.completeReply Config.replyPairing rx) ∨
    (∃ e, t.xfer = s.xfer.completeError e) := by
  obtain ⟨-, rfl⟩ | ⟨line, rest, i, u, -, hexec, -, hxfer, -, -⟩ | ⟨e, rest, -, rfl⟩ | ⟨d, rest, -, rfl⟩ :=
    step_next_cases h
  · exact .inl (redraw_xfer s)
  · rw [← hxfer]
    obtain hsame | hstart | hreply := exec_xfer_cases hexec
    · exact .inl hsame
    · exact .inr (.inl hstart)
    · exact .inr (.inr (.inl hreply))
  · exact .inr (.inr (.inr ⟨e, failExchange_xfer _ e⟩))
  · exact .inl (setDevice_xfer _ d)

variable {x : Xfer} {pairing : ReplyPairing}

/-- The invariant does not speak of the frame in flight. -/
theorem Xfer.Coherent.withInFlight (h : x.Coherent pairing) (tx : Option Frame) :
    { x with inFlight := tx }.Coherent pairing := h

theorem Xfer.completeReply_coherent (x : Xfer) (rx : Frame) : (x.completeReply pairing rx).Coherent pairing := by
  rintro rfl
  rfl

theorem Xfer.Coherent.completeError (h : x.Coherent pairing) (e : TransportError) :
    (x.completeError e).Coherent pairing := by
  cases hx : x.inFlight with
  | none => rwa [completeError_of_idle e x hx]
  | some tx =>
    rw [completeError_of_busy e x hx]
    exact rfl

end Sys2Proof.Machine

namespace Sys2Proof

open Machine

/-- Settles O47: each of the four things a step can do to the exchange boundary keeps the invariant. -/
theorem stepKeepsTheExchangeCoherent : Obligations.StepKeepsTheExchangeCoherent := by
  intro s t hinv h
  change t.xfer.Coherent Config.replyPairing
  obtain hsame | ⟨tx, -, hstart⟩ | ⟨rx, hreply⟩ | ⟨e, herror⟩ := step_xfer_cases h
  · rw [hsame]
    exact hinv
  · rw [hstart]
    exact hinv.withInFlight _
  · rw [hreply]
    exact s.xfer.completeReply_coherent rx
  · rw [herror]
    exact hinv.completeError e

/-- Settles O48: at reset no exchange has completed and nothing is recorded. -/
theorem resetIsCoherent : Obligations.ResetIsCoherent := ⟨rfl, rfl⟩

/-- Settles O45: with a frame in flight no exchange starts, and a reply or an error records that frame. -/
theorem exchangeRunsToCompletion : Obligations.ExchangeRunsToCompletion := by
  intro s t tx hbusy h
  obtain hsame | ⟨tx', hidle, -⟩ | ⟨rx, hreply⟩ | ⟨e, herror⟩ := step_xfer_cases h
  · exact .inl hsame
  · rw [hbusy] at hidle
    cases hidle
  · rw [hreply]
    exact .inr ⟨rfl, hbusy, Option.some_ne_none _⟩
  · rw [herror, completeError_of_busy e s.xfer hbusy]
    exact .inr ⟨rfl, rfl, Option.some_ne_none _⟩

end Sys2Proof
end

section
/-! PROOFS. Runs, and the two steps of an exchange that returns a reply (20_memory.md R29). -/

namespace Sys2Proof.Machine

variable {s : State}

/-- A run goes on from where its first part ends. -/
theorem run_add {M : Host.Core} {a b : M.State} (m n : Nat) (h : M.run m a = .next b) :
    M.run (m + n) a = M.run n b := by
  induction m generalizing a with
  | zero =>
    cases h
    rw [Nat.zero_add]
  | succ m ih =>
    rw [Nat.add_right_comm, Host.Core.run]
    rw [Host.Core.run] at h
    cases hstep : M.step a <;> rw [hstep] at h
    case next c => exact ih h
    case fault r => cases h
    case refused r => cases h

/-- A frame sent and its reply received leave the exchange boundary as the reply's completion does. -/
theorem run_reply {kind : TxKind} {tx rx : Frame} {rest : List HostLine} (hidle : s.xfer.inFlight = none)
    (hp : s.program = .transmit kind tx :: .receive rx :: rest) :
    ∃ t, Sys2Proof.core.run 2 s = .next t ∧ t.program = rest ∧
      t.xfer = { s.xfer with inFlight := some tx }.completeReply Config.replyPairing rx :=
  ⟨_, (run_succ 1 ((step_transmit hp).trans (startExchange_of_idle tx hidle))).trans (run_succ 0 (step_receive rfl)),
    rfl, rfl⟩

end Sys2Proof.Machine
end

section
/-! PROOFS. The two ends of an exchange (20_memory.md R29, R33), the host events that are no instruction, and
invocations with and without a reply in hand (R32). -/

namespace Sys2Proof.Machine

variable {s : State}

theorem Xfer.answeredNow_eq (pairing : ReplyPairing) (x : Xfer) :
    x.answeredNow pairing = if pairing = .sameExchange then x.inFlight else x.previous := by
  cases pairing <;> rfl

/-! ### The lines that invoke an operation -/

theorem presentInputs_frameIn {op : BitVec 3} {operands : Operands} {override : Option Bit} {f : Frame}
    (h : operands.frameIn.frame s.xfer = some f) : (s.presentInputs op operands override).frameIn = f := by
  change (operands.frameIn.frame s.xfer).getD s.inp.frameIn = f
  rw [h, Option.getD_some]

/-- A line that invokes an operation whose frame, if it reads one, is there runs it on the line's inputs. -/
theorem step_invoke {op : BitVec 3} {operands : Operands} {override : Option Bit} {rest : List HostLine} {i : Instr}
    (hp : s.program = .invoke op operands override :: rest) (hd : decodeSelector op = .ok i)
    (hf : readsFrameIn i = true → operands.frameIn.frame s.xfer ≠ none) :
    step s = exec i { s with program := rest, inp := s.presentInputs op operands override } := by
  refine step_of_fetch_run ?_
  rw [State.fetch, hp]
  exact fetchInvoke_run hd hf

/-- A line that invokes an operation for a frame that is not there is refused. -/
theorem step_invoke_refused {op : BitVec 3} {operands : Operands} {override : Option Bit} {rest : List HostLine}
    {i : Instr} (hp : s.program = .invoke op operands override :: rest) (hd : decodeSelector op = .ok i)
    (hreads : readsFrameIn i = true) (hnone : operands.frameIn.frame s.xfer = none) :
    step s = .refused .noReplyFrame := by
  refine step_of_fetch_refuse ?_
  have hfetch : s.fetch = State.fetchInvoke op operands override { s with program := rest } := by
    rw [State.fetch, hp]; rfl
  rw [hfetch, State.fetchInvoke, hd]
  simp [hreads, hnone]

theorem Xfer.replyFrame_of_none {x : Xfer}
    (h : (∃ e, x.result = some (.error e)) ∨ x.result = none ∨ ∃ tx, x.inFlight = some tx) :
    x.replyFrame = none := by
  rw [Xfer.replyFrame]
  obtain ⟨e, hresult⟩ | hresult | ⟨tx, hbusy⟩ := h
  · cases hx : x.inFlight <;> rw [hresult]
  · cases hx : x.inFlight <;> rw [hresult]
  · rw [hbusy]

end Sys2Proof.Machine

namespace Sys2Proof

open Machine

/-- Settles O7: both rows start an exchange with the frame of their fields. -/
theorem transmitFramesStartAnExchange : Obligations.TransmitFramesStartAnExchange := by
  intro s crc addrHi rw low hidle
  exact ⟨txWord crc addrHi rw low, crcField_txWord .., addrHiField_txWord .., rwField_txWord .., lowField_txWord ..,
    startExchange_of_idle _ hidle, startExchange_of_idle _ hidle⟩

/-- Settles O9: each row presents the word of its fields, and the pairing says which request it answers. -/
theorem receiveFramesArePresented : Obligations.ReceiveFramesArePresented := by
  intro s i f hrow
  have hexec : exec i s = .next (s.receiveFrame f) := by
    obtain ⟨_, _, _, _, rfl, rfl⟩ | ⟨_, _, rfl, rfl⟩ | ⟨_, _, _, rfl, rfl⟩ | ⟨_, _, rfl, rfl⟩ := hrow <;> rfl
  rw [hexec, ← Xfer.answeredNow_eq]
  rfl

/-- Settles O44: the equation of each line, with the error's effect on a busy and on an idle boundary. -/
theorem hostEventsChangeOnlyTheirOwn : Obligations.HostEventsChangeOnlyTheirOwn := by
  intro s rest
  refine ⟨fun e tx hp hbusy => ?_, fun e hp hidle => ?_, fun d hp => step_device hp⟩
  · rw [step_transportError hp, State.failExchange, completeError_of_busy e _ hbusy]
    rfl
  · rw [step_transportError hp, State.failExchange, completeError_of_idle e _ hidle]
    rfl

/-- Settles O41: without a reply in hand the source `reply` stands for no frame. -/
theorem noReplyFrameNoInvocation : Obligations.NoReplyFrameNoInvocation := by
  intro s op operands override rest hp hsource hxfer
  have hnone : operands.frameIn.frame s.xfer = none := by
    rw [hsource]
    exact Xfer.replyFrame_of_none hxfer
  constructor
  · rintro (rfl | rfl | rfl)
    · exact step_invoke_refused (i := .verifyCrc) hp rfl rfl hnone
    · exact step_invoke_refused (i := .decode) hp rfl rfl hnone
    · exact step_invoke_refused (i := .classify) hp rfl rfl hnone
  · have hinp : s.presentInputs op operands override =
        { op := op, address := operands.address, value := operands.value, payload := operands.payload
          frameIn := s.inp.frameIn, verify := override.getD (BitVec.ofBool s.device.crcEnabled) } := by
      rw [State.presentInputs, hnone]
      rfl
    rw [← hinp]
    rintro i (⟨rfl, rfl⟩ | ⟨rfl, rfl⟩ | ⟨rfl, rfl⟩)
    · exact step_invoke hp rfl nofun
    · exact step_invoke hp rfl nofun
    · exact step_invoke hp rfl nofun

end Sys2Proof
end

section
/-! PROOFS. A reply that has arrived, decoded and classified (42_decode.md R71, R78), and a whole exchange
(20_memory.md R29). -/

namespace Sys2Proof.Machine

variable {s t : State}

/-! ### What `DECODE` and `CLASSIFY` put on the ports -/

theorem exec_decode_out {view : ReplyView} (h : exec .decode s = .next t)
    (hview : decodeReply Config.params s.inp.frameIn = view) :
    t.out = writeView view (Config.drawnPorts s.draws) := by
  cases h
  rw [drive_out, hview]

theorem exec_classify_of_ok {value : BitVec 32} (h : exec .classify s = .next t)
    (hok : classifyReply Config.params s.inp.frameIn s.inp.verify = .ok value) :
    t.out.outOk = 1#1 ∧ t.out.outValue = value := by
  cases h
  rw [drive_out, hok]
  exact ⟨rfl, rfl⟩

theorem exec_classify_of_err {kind : ErrorKind} {info : ErrInfo} (h : exec .classify s = .next t)
    (herr : classifyReply Config.params s.inp.frameIn s.inp.verify = .err kind info) :
    t.out.outOk = 0#1 ∧ t.out.outKind = kindCode kind ∧ t.out.outInfo = info := by
  cases h
  rw [drive_out, herr]
  exact ⟨rfl, rfl, rfl⟩

theorem exec_classify_kept (h : exec .classify s = .next t) : s.Kept t := by
  cases h
  exact drive_kept s _

theorem exec_classify_viewHealth (h : exec .classify s = .next t) (hmode : modeField s.inp.frameIn = 0b10#2) :
    t.out.viewHealth = healthField s.inp.frameIn := by
  cases h
  rw [drive_out, deliver_viewHealth, decodeReply_10 _ _ hmode, writeViewKind_critical_viewHealth]

/-! ### The view of each layout -/

theorem decodeReply_rx16Word (P : Params) (crc : Byte) (status : BitVec 5) (rwEcho : Bit) (data : BitVec 16) :
    decodeReply P (rx16Word crc status rwEcho data) = .reply16 status (P.statusKind status) rwEcho data crc := by
  rw [decodeReply_00 P _ (modeField_rx16Word ..), statusField_rx16Word, rwEchoField_rx16Word, dataField_rx16Word,
    crcField_rx16Word]

theorem decodeReply_rx22Word (P : Params) (crc : Byte) (wide : BitVec 22) :
    decodeReply P (rx22Word crc wide) = .reply22 wide crc := by
  rw [decodeReply_01 P _ (modeField_rx22Word ..), wideField_rx22Word, crcField_rx22Word]

theorem decodeReply_rxcritWord (P : Params) (undef : Byte) (ignored : BitVec 14) (health : Byte) :
    decodeReply P (rxcritWord undef ignored health) = .critical health := by
  rw [decodeReply_10 P _ (modeField_rxcritWord ..), healthField_rxcritWord]

theorem decodeReply_rxrsvdWord (P : Params) (high : Byte) (low : BitVec 22) :
    decodeReply P (rxrsvdWord high low) = .reserved :=
  decodeReply_11 P _ (modeField_rxrsvdWord ..)

/-! ### The judgement of each layout -/

section
variable (P : Params) {v : Bit}

theorem crcTestFails_of_verified {c : CrcParams} {f : Frame} (h : v = 0#1 ∨ crcMatches c f = true) :
    crcTestFails c f v = false := by
  obtain rfl | hmatch := h
  · exact crcTestFails_off f c
  · simp [crcTestFails, hmatch]

theorem classifyReply_of_mismatch {f : Frame} (hmode : modeField f = 0b00#2 ∨ modeField f = 0b01#2)
    (hverify : v = 1#1) (hmatch : crcMatches P.crc f = false) :
    classifyReply P f v = .err .crcError .localMismatch := by
  subst hverify
  have hfails : crcTestFails P.crc f 1#1 = true := by rw [crcTestFails_on, hmatch]; rfl
  obtain h | h := hmode
  · rw [classifyReply_00 P f _ h, if_pos hfails]
  · rw [classifyReply_01 P f _ h, if_pos hfails]

theorem classifyReply_rx16Word {crc : Byte} {status : BitVec 5} {rwEcho : Bit} {data : BitVec 16}
    (h : v = 0#1 ∨ crcMatches P.crc (rx16Word crc status rwEcho data) = true) :
    classifyReply P (rx16Word crc status rwEcho data) v =
      if status = 0#5 then .ok (data.setWidth 32) else .err (P.statusError status).kind (.status status) := by
  rw [classifyReply_00 P _ v (modeField_rx16Word ..), crcTestFails_of_verified h, statusField_rx16Word,
    dataField_rx16Word]
  by_cases hs : status = 0#5
  · subst hs
    rfl
  · rw [if_neg hs, statusKind_of_ne P hs]
    rfl

theorem classifyReply_rx22Word {crc : Byte} {wide : BitVec 22}
    (h : v = 0#1 ∨ crcMatches P.crc (rx22Word crc wide) = true) :
    classifyReply P (rx22Word crc wide) v = .ok (wide.setWidth 32) := by
  rw [classifyReply_01 P _ v (modeField_rx22Word ..), crcTestFails_of_verified h, wideField_rx22Word]
  rfl

theorem classifyReply_rxcritWord (undef : Byte) (ignored : BitVec 14) (health : Byte) :
    classifyReply P (rxcritWord undef ignored health) v = .err .hardwareError (.health health) := by
  rw [classifyReply_10 P _ v (modeField_rxcritWord ..), healthField_rxcritWord]

theorem classifyReply_rxrsvdWord (high : Byte) (low : BitVec 22) :
    classifyReply P (rxrsvdWord high low) v = .err P.reservedModeKind .none :=
  classifyReply_11 P _ v (modeField_rxrsvdWord ..)

end

end Sys2Proof.Machine

namespace Sys2Proof

open Machine

/-- Settles O10: the row presents its word, and `DECODE` writes the view of the word's layout. -/
theorem arrivedReplyDecodesToItsFields : Obligations.ArrivedReplyDecodesToItsFields := by
  intro s
  have hdecode (f : Frame) : ∃ u, exec .decode (s.receiveFrame f) = .next u := ⟨_, rfl⟩
  refine ⟨fun crc status rwEcho data => ?_, fun crc wide => ?_, fun undef ignored health => ?_, fun high low => ?_⟩
  · obtain ⟨u, hu⟩ := hdecode (rx16Word crc status rwEcho data)
    refine ⟨_, u, rfl, hu, ?_⟩
    rw [exec_decode_out hu (decodeReply_rx16Word ..)]
    exact ⟨rfl, rfl, rfl, rfl, rfl, rfl⟩
  · obtain ⟨u, hu⟩ := hdecode (rx22Word crc wide)
    refine ⟨_, u, rfl, hu, ?_⟩
    rw [exec_decode_out hu (decodeReply_rx22Word ..)]
    exact ⟨rfl, rfl, rfl⟩
  · obtain ⟨u, hu⟩ := hdecode (rxcritWord undef ignored health)
    refine ⟨_, u, rfl, hu, ?_⟩
    rw [exec_decode_out hu (decodeReply_rxcritWord ..)]
    exact ⟨rfl, rfl⟩
  · obtain ⟨u, hu⟩ := hdecode (rxrsvdWord high low)
    refine ⟨_, u, rfl, hu, ?_⟩
    rw [exec_decode_out hu (decodeReply_rxrsvdWord ..)]
    rfl

/-- Settles O11: the row presents its word, and `CLASSIFY` judges the word by its layout. -/
theorem arrivedReplyIsJudgedByItsLayout : Obligations.ArrivedReplyIsJudgedByItsLayout := by
  intro s
  have hclassify (f : Frame) : ∃ u, exec .classify (s.receiveFrame f) = .next u := ⟨_, rfl⟩
  refine ⟨fun undef ignored health => ?_, fun high low => ?_, fun crc status rwEcho data => ?_, fun crc wide => ?_⟩
  · obtain ⟨u, hu⟩ := hclassify (rxcritWord undef ignored health)
    obtain ⟨hok, hkind, hinfo⟩ := exec_classify_of_err hu (classifyReply_rxcritWord ..)
    have hhealth : u.out.viewHealth = health :=
      (exec_classify_viewHealth hu (modeField_rxcritWord ..)).trans (healthField_rxcritWord ..)
    exact ⟨_, u, rfl, hu, hok, hkind, hhealth, hinfo⟩
  · obtain ⟨u, hu⟩ := hclassify (rxrsvdWord high low)
    exact ⟨_, u, rfl, hu, exec_classify_of_err hu (classifyReply_rxrsvdWord ..)⟩
  · obtain ⟨u, hu⟩ := hclassify (rx16Word crc status rwEcho data)
    refine ⟨_, u, rfl, hu, fun hverify hmatch => ?_, fun hverified => ⟨fun hzero => ?_, fun hstatus => ?_⟩⟩
    · exact exec_classify_of_err hu (classifyReply_of_mismatch _ (.inl (modeField_rx16Word ..)) hverify hmatch)
    · exact exec_classify_of_ok hu ((classifyReply_rx16Word _ hverified).trans (if_pos hzero))
    · obtain ⟨hok, hkind, hinfo⟩ := exec_classify_of_err hu
        ((classifyReply_rx16Word _ hverified).trans (if_neg hstatus))
      exact ⟨hok, hinfo, hkind⟩
  · obtain ⟨u, hu⟩ := hclassify (rx22Word crc wide)
    exact ⟨_, u, rfl, hu,
      fun hverify hmatch => exec_classify_of_err hu
        (classifyReply_of_mismatch _ (.inr (modeField_rx22Word ..)) hverify hmatch),
      fun hverified => exec_classify_of_ok hu (classifyReply_rx22Word _ hverified)⟩

/-- Settles O46: the first two steps leave the reply in hand, and the third presents it to `CLASSIFY`. -/
theorem exchangeDeliversItsReply : Obligations.ExchangeDeliversItsReply := by
  intro s kind tx rx operands verify rest hidle hsource hp
  obtain ⟨t, hrun, hprogram, hxfer⟩ := run_reply hidle hp
  have hframe : operands.frameIn.frame t.xfer = some rx := by
    rw [hsource, hxfer]
    rfl
  have hstep := step_invoke (i := .classify) hprogram rfl fun _ => hframe ▸ Option.some_ne_none rx
  have hframeIn : (t.presentInputs 0b101#3 operands (some verify)).frameIn = rx := presentInputs_frameIn hframe
  obtain ⟨u, hu⟩ : ∃ u, exec .classify
      { t with program := rest, inp := t.presentInputs 0b101#3 operands (some verify) } = .next u := ⟨_, rfl⟩
  obtain ⟨hinp, hxfer', -, hprogram', -⟩ := exec_classify_kept hu
  refine ⟨u, (run_add 2 1 hrun).trans (run_succ 0 (hstep.trans hu)), hprogram', ?_⟩
  rw [hinp, hxfer', hxfer]
  refine ⟨hframeIn, rfl, rfl, fun hsame => ?_, fun hnext => ?_, fun value hok => ?_, fun k info herr => ?_⟩
  · rw [hsame]
    rfl
  · rw [hnext]
    rfl
  · rw [← hframeIn] at hok
    exact exec_classify_of_ok hu hok
  · rw [← hframeIn] at herr
    exact exec_classify_of_err hu herr

end Sys2Proof
end

section
/-! PROOFS. Wire order (20_memory.md R27, R28) and the sample words. -/

namespace Sys2Proof.Machine

/-- Shifting in the next lower bit of a frame: the register that held the bits above `k` now holds bit `k` too. -/
theorem shiftIn_ushiftRight (f : Frame) (k : Nat) :
    (f >>> (k + 1)) <<< 1 ||| (BitVec.ofBool (f.getLsbD k)).setWidth 32 = f >>> k := by
  refine BitVec.eq_of_getLsbD_eq fun i hi => ?_
  cases i with
  | zero => simp
  | succ i => simp [hi, show k + 1 + i = k + (i + 1) by omega]

/-- After `n` bits the shifted-in register holds the top `n` bits of the frame. -/
theorem ofWireBits_top (f : Frame) (n : Nat) (hn : n ≤ 32) :
    ofWireBits ((List.range n).map fun i => f.getLsbD (31 - i)) = f >>> (32 - n) := by
  induction n with
  | zero => exact (BitVec.ushiftRight_eq_zero (Nat.le_refl 32)).symm
  | succ n ih =>
    have hshift : 32 - n = 31 - n + 1 := by omega
    have hih := ih (by omega)
    rw [ofWireBits] at hih ⊢
    rw [List.range_succ, List.map_append, List.foldl_append, hih, hshift]
    exact (shiftIn_ushiftRight f (31 - n)).trans (by rw [show 31 - n = 32 - (n + 1) by omega])

theorem payloadByte_payloadField (f : Frame) {k : Nat} (hk : k < 3) :
    payloadByte (payloadField f) k = f.extractLsb' (8 * k) 8 := by
  refine BitVec.eq_of_getLsbD_eq fun i hi => ?_
  simp [payloadByte, payloadField, show 8 * k + i < 24 by omega]

end Sys2Proof.Machine

namespace Sys2Proof

open Machine

/-- Settles O50: shifting in all 32 bits leaves no bit of the frame out, and each byte is a slice of it. -/
theorem framesTravelMostSignificantBitFirst : Obligations.FramesTravelMostSignificantBitFirst := by
  intro f
  refine ⟨?_, fun i hi => ?_, ofWireBits_top f 32 (Nat.le_refl 32), _, _, _, _, rfl, ofFrameBytes_bytes f, rfl,
    (payloadByte_payloadField f (k := 2) (by decide)).symm, (payloadByte_payloadField f (k := 1) (by decide)).symm,
    (payloadByte_payloadField f (k := 0) (by decide)).symm⟩
  · rw [wireBits, List.length_map, List.length_range]
  · rw [wireBits, List.getElem?_map, List.getElem?_range hi]
    rfl

/-- Settles O15: seven closed words, which the decoder takes apart by evaluation. -/
theorem sampleWordsDecode : Obligations.SampleWordsDecode := by
  unfold Obligations.SampleWordsDecode
  decide

end Sys2Proof
end

section
/-! PROOFS. `transfer_many` (20_memory.md R30): its lines run exchange by exchange. -/

namespace Sys2Proof.Machine

variable {s : State}

theorem transferMany_cons (x : Exchange) (xs : List Exchange) :
    transferMany (x :: xs) = x.lines ++ transferMany xs := List.flatMap_cons

theorem transferMany_append (xs ys : List Exchange) :
    transferMany (xs ++ ys) = transferMany xs ++ transferMany ys := List.flatMap_append

/-- The lines of `n` exchanges, from a state with none under way, run off in `2n` steps and leave none under way. -/
theorem run_transferMany (xs : List Exchange) {rest : List HostLine} (hidle : s.xfer.inFlight = none)
    (hp : s.program = transferMany xs ++ rest) :
    ∃ t, Sys2Proof.core.run (2 * xs.length) s = .next t ∧ t.program = rest ∧ t.xfer.inFlight = none := by
  induction xs generalizing s with
  | nil => exact ⟨s, rfl, hp, hidle⟩
  | cons x xs ih =>
    rw [transferMany_cons, List.append_assoc] at hp
    obtain ⟨t, hrun, hprogram, hdone, -⟩ := run_exchange x hidle hp
    obtain ⟨u, hrun', hrest, hdone'⟩ := ih hdone hprogram
    have hlen : 2 * (x :: xs).length = 2 + 2 * xs.length := by rw [List.length_cons]; omega
    exact ⟨u, by rw [hlen, run_add 2 _ hrun, hrun'], hrest, hdone'⟩

theorem Exchange.error?_eq_none_iff (x : Exchange) : x.error? = none ↔ ∃ rx, x.result = .reply rx := by
  obtain ⟨kind, tx, result⟩ := x
  cases result <;> simp [Exchange.error?]

theorem Exchange.error?_of_error {x : Exchange} {e : TransportError} (h : x.result = .error e) :
    x.error? = some e := by
  rw [Exchange.error?, h]

theorem transferManyResult_eq_none_iff (xs : List Exchange) :
    transferManyResult xs = none ↔ ∀ x ∈ xs, ∃ rx, x.result = .reply rx := by
  simp only [transferManyResult, List.findSome?_eq_none_iff, Exchange.error?_eq_none_iff]

/-- The state after the exchange at a place of the list: the earlier exchanges run off, then its two lines do. -/
theorem run_transferMany_split (before after : List Exchange) (x : Exchange) {rest : List HostLine}
    (hidle : s.xfer.inFlight = none) (hp : s.program = transferMany (before ++ x :: after) ++ rest) :
    ∃ t, Sys2Proof.core.run (2 * (before.length + 1)) s = .next t ∧
      t.program = transferMany after ++ rest ∧ t.xfer.inFlight = none ∧
      t.xfer.previous = some x.tx ∧ t.xfer.result = some x.result ∧
      (∀ rx, x.result = .reply rx → t.inp.frameIn = rx) := by
  rw [transferMany_append, transferMany_cons, List.append_assoc, List.append_assoc] at hp
  obtain ⟨u, hrun, hprogram, hdone⟩ := run_transferMany before hidle hp
  obtain ⟨t, hrun', hrest, hdone', hprevious, hresult, -, hinp⟩ := run_exchange x hdone hprogram
  refine ⟨t, (run_add _ 2 hrun).trans hrun', hrest, hdone', hprevious, hresult, fun rx hreply => ?_⟩
  rw [hinp, hreply]

end Sys2Proof.Machine

namespace Sys2Proof

open Machine

/-- Settles O51: the lines run off exchange by exchange, and the result is the first error in the list. -/
theorem transferManyIsSequential : Obligations.TransferManyIsSequential := by
  refine ⟨fun s xs rest hidle hp => ⟨run_transferMany xs hidle hp, fun i x hx => ?_⟩,
    transferManyResult_eq_none_iff, fun before after x e hreplies herror => ?_⟩
  · obtain ⟨hi, rfl⟩ := List.getElem?_eq_some_iff.mp hx
    have hsplit : xs.take i ++ xs[i] :: xs.drop (i + 1) = xs := by
      rw [List.getElem_cons_drop, List.take_append_drop]
    rw [← hsplit] at hp
    have hlen : (xs.take i).length = i := List.length_take_of_le (Nat.le_of_lt hi)
    simpa only [hlen] using run_transferMany_split _ _ _ hidle hp
  · have hbefore : before.findSome? Exchange.error? = none := (transferManyResult_eq_none_iff before).mpr hreplies
    rw [transferManyResult, List.findSome?_append, hbefore, Option.none_or, List.findSome?_cons,
      Exchange.error?_of_error herror]

end Sys2Proof
end

section
/-! PROOFS. Decoder and encoder invert each other (30_encoding.md R37, R38, R45 to R48, R50), and the two selector
codes that select nothing (R51). -/

namespace Sys2Proof

open Machine

/-! ### The word of a decoded instruction -/

theorem encodeWord_decodeTransmit (kind : TxKind) (f : Frame) :
    encodeWord (decodeTransmit kind f) = .transmit kind f := by
  cases kind with
  | read => exact congrArg (Word.transmit .read) (txWord_fields f)
  | write => exact congrArg (Word.transmit .write) (txWord_fields f)

theorem encodeWord_decodeReceive (f : Frame) : encodeWord (decodeReceive f) = .receive f := by
  obtain h | h | h | h := mode_cases (modeField f) <;> rw [decodeReceive, h]
  · exact congrArg Word.receive (rx16Word_fields f h)
  · exact congrArg Word.receive (rx22Word_fields f h)
  · exact congrArg Word.receive (rxcritWord_fields f h)
  · exact congrArg Word.receive (rxrsvdWord_fields f h)

/-- A selector code is that of the operation it selects, or one of the two that select none. -/
theorem selector_cases (op : BitVec 3) :
    (∃ i, decodeSelector op = .ok i ∧ encodeWord i = .selector op) ∨ op = 0b110#3 ∨ op = 0b111#3 := by
  have hcodes : op = 0b000#3 ∨ op = 0b001#3 ∨ op = 0b010#3 ∨ op = 0b011#3 ∨ op = 0b100#3 ∨ op = 0b101#3 ∨
      op = 0b110#3 ∨ op = 0b111#3 := by
    revert op; decide
  obtain rfl | rfl | rfl | rfl | rfl | rfl | hreserved := hcodes
  · exact .inl ⟨.crc, rfl, rfl⟩
  · exact .inl ⟨.verifyCrc, rfl, rfl⟩
  · exact .inl ⟨.encodeRead, rfl, rfl⟩
  · exact .inl ⟨.encodeWrite, rfl, rfl⟩
  · exact .inl ⟨.decode, rfl, rfl⟩
  · exact .inl ⟨.classify, rfl, rfl⟩
  · exact .inr hreserved

theorem decodeSelector_reserved {op : BitVec 3} (h : op = 0b110#3 ∨ op = 0b111#3) :
    decodeSelector op = .error (.reservedSelector op) := by
  obtain rfl | rfl := h <;> rfl

theorem exists_decodeSelector_iff (op : BitVec 3) :
    (∃ i, decodeSelector op = .ok i) ↔ ¬(op = 0b110#3 ∨ op = 0b111#3) := by
  constructor
  · rintro ⟨i, h⟩ hreserved
    cases (decodeSelector_reserved hreserved).symm.trans h
  · intro h
    obtain ⟨i, hdecode, -⟩ := (selector_cases op).resolve_right h
    exact ⟨i, hdecode⟩

theorem encodeWord_of_decodeSelector {op : BitVec 3} {i : Instr} (h : decodeSelector op = .ok i) :
    encodeWord i = .selector op := by
  obtain ⟨j, hdecode, hword⟩ := (selector_cases op).resolve_right ((exists_decodeSelector_iff op).mp ⟨i, h⟩)
  cases hdecode.symm.trans h
  exact hword

/-! ### Selector bytes -/

/-- A byte whose five upper bits are zero is its three lower bits, widened. -/
theorem setWidth_selector {b : Byte} (h : b.extractLsb' 3 5 = 0#5) : (b.extractLsb' 0 3).setWidth 8 = b := by
  refine BitVec.eq_of_getLsbD_eq fun k hk => ?_
  by_cases hlow : k < 3
  · simp [hlow, hk]
  · have hbit : (b.extractLsb' 3 5).getLsbD (k - 3) = false := by rw [h, BitVec.getLsbD_zero]
    simpa [hlow, hk, show k - 3 < 5 by omega, show 3 + (k - 3) = k by omega] using hbit

theorem decodeSelectorByte_setWidth (op : BitVec 3) : decodeSelectorByte (op.setWidth 8) = decodeSelector op := by
  have hhigh : (op.setWidth 8).extractLsb' 3 5 = 0#5 := by ext k hk; simp
  have hlow : (op.setWidth 8).extractLsb' 0 3 = op := by ext k hk; simp [hk, show k < 8 by omega]
  rw [decodeSelectorByte, if_pos hhigh, hlow]

theorem decodeSelectorByte_ok {b : Byte} {i : Instr} (h : decodeSelectorByte b = .ok i) :
    encodeWord i = .selector (b.extractLsb' 0 3) ∧ (b.extractLsb' 0 3).setWidth 8 = b := by
  rw [decodeSelectorByte] at h
  split at h
  next hhigh => exact ⟨encodeWord_of_decodeSelector h, setWidth_selector hhigh⟩
  next => cases h

/-! ### The fetch -/

/-- What a program's first line is fetched as. -/
theorem Machine.fetch_of_cons {s : State} {line : HostLine} {rest : List HostLine} (hp : s.program = line :: rest) :
    s.fetch = State.fetchLine line { s with program := rest } := by
  rw [State.fetch, hp]

/-! ### The obligations -/

/-- Settles O12: the encoder's word of each instruction decodes to it, row by row. -/
theorem decodeInvertsEncode : Obligations.DecodeInvertsEncode := by
  intro i
  cases i with
  | crc => exact Laws.RoundTrip.crc
  | verifyCrc => exact Laws.RoundTrip.verifyCrc
  | encodeRead => exact Laws.RoundTrip.encodeRead
  | encodeWrite => exact Laws.RoundTrip.encodeWrite
  | decode => exact Laws.RoundTrip.decode
  | classify => exact Laws.RoundTrip.classify
  | txRead crc addrHi rw low => exact Laws.RoundTrip.txRead crc addrHi rw low
  | txWrite crc addrHi rw low => exact Laws.RoundTrip.txWrite crc addrHi rw low
  | rx16 crc status rwEcho data => exact Laws.RoundTrip.rx16 crc status rwEcho data
  | rx22 crc wide => exact Laws.RoundTrip.rx22 crc wide
  | rxcrit undef ignored health => exact Laws.RoundTrip.rxcrit undef ignored health
  | rxrsvd high low => exact Laws.RoundTrip.rxrsvd high low

/-- Settles O13: the decoded fields make up the whole word, and the word's bytes are those it was made of. -/
theorem encodeInvertsDecode : Obligations.EncodeInvertsDecode := by
  intro port bytes i h
  rw [encode]
  unfold decodeBytes at h
  split at h
  next b =>
    obtain ⟨hword, hbyte⟩ := decodeSelectorByte_ok h
    rw [hword, Word.port, Word.bytes, hbyte]
  next kind b3 b2 b1 b0 =>
    cases h
    rw [encodeWord_decodeTransmit, Word.port, Word.bytes, frameBytes_ofFrameBytes]
  next b3 b2 b1 b0 =>
    cases h
    rw [encodeWord_decodeReceive, Word.port, Word.bytes, frameBytes_ofFrameBytes]
  next => cases h

/-- Settles O14: the six other codes each select an operation; the fetch refuses the two that select none. -/
theorem reservedSelectorsAreRefused : Obligations.ReservedSelectorsAreRefused := by
  refine ⟨fun op => (exists_decodeSelector_iff op).trans not_or, fun s op operands override rest hp hreserved => ?_⟩
  refine step_of_fetch_refuse ((fetch_of_cons hp).trans ?_)
  rw [State.fetchLine, State.fetchInvoke, decodeSelector_reserved hreserved]

end Sys2Proof
end

section
/-! PROOFS. The frames of the two encoders (41_encode.md R65, R66): transmit rows that are well formed (30_encoding.md
R39, R41), whose CRC field is the checksum. -/

namespace Sys2Proof.Machine

theorem crcMatches_withChecksum (c : CrcParams) (p : Payload) : crcMatches c (withChecksum c p) = true := by
  rw [crcMatches_iff, withChecksum, crcField_joinFrame, payloadField_joinFrame]

theorem encodeReadFrame_eq_txWord (P : Params) (a : Addr) :
    encodeReadFrame P a =
      txWord (crc8 P.crc (txPayload (P.addrHi a) P.rwRead (P.rdLow a))) (P.addrHi a) P.rwRead (P.rdLow a) := rfl

theorem encodeWriteFrame_eq_txWord (P : Params) (a : Addr) (v : BitVec 16) :
    encodeWriteFrame P a v =
      txWord (crc8 P.crc (txPayload (P.addrHi a) P.rwWrite v)) (P.addrHi a) P.rwWrite v := rfl

theorem crcMatches_encodeReadFrame (P : Params) (a : Addr) : crcMatches P.crc (encodeReadFrame P a) = true :=
  crcMatches_withChecksum ..

theorem crcMatches_encodeWriteFrame (P : Params) (a : Addr) (v : BitVec 16) :
    crcMatches P.crc (encodeWriteFrame P a v) = true :=
  crcMatches_withChecksum ..

end Sys2Proof.Machine

namespace Sys2Proof

open Machine

theorem txWellFormed_iff (P : Params) (kind : TxKind) (crc : Byte) (addrHi : BitVec 7) (rw : Bit) (low : BitVec 16) :
    txWellFormed P kind crc addrHi rw low = true ↔
      rw = P.rwOf kind ∧ crc = crc8 P.crc (txPayload addrHi rw low) := by
  simp [txWellFormed]

theorem decodeTransmit_read_txWord (crc : Byte) (addrHi : BitVec 7) (rw : Bit) (low : BitVec 16) :
    decodeTransmit .read (txWord crc addrHi rw low) = .txRead crc addrHi rw low := by
  simp [decodeTransmit]

theorem decodeTransmit_write_txWord (crc : Byte) (addrHi : BitVec 7) (rw : Bit) (low : BitVec 16) :
    decodeTransmit .write (txWord crc addrHi rw low) = .txWrite crc addrHi rw low := by
  simp [decodeTransmit]

/-- Settles O16: the flag and the CRC field of a well-formed row are what its encoder writes. -/
theorem encodersBuildTheWellFormedTransmitRows : Obligations.EncodersBuildTheWellFormedTransmitRows := by
  intro P
  refine ⟨fun a => ?_, fun a v => ?_, fun crc rw a h => ?_, fun crc rw low a h => ?_⟩
  · rw [encodeReadFrame_eq_txWord, decodeTransmit_read_txWord]
    exact (txWellFormed_iff ..).mpr ⟨rfl, rfl⟩
  · rw [encodeWriteFrame_eq_txWord, decodeTransmit_write_txWord]
    exact (txWellFormed_iff ..).mpr ⟨rfl, rfl⟩
  · obtain ⟨rfl, rfl⟩ := (txWellFormed_iff ..).mp h
    rfl
  · obtain ⟨rfl, rfl⟩ := (txWellFormed_iff ..).mp h
    rfl

/-- Settles O24: both encoders put a payload under its checksum, and look at neither the flag nor `verify`. -/
theorem transmitCrcFieldIsAlwaysFilled : Obligations.TransmitCrcFieldIsAlwaysFilled := by
  intro s enabled verify i hi
  obtain rfl | rfl := hi
  · exact ⟨_, rfl, (crcMatches_iff _ _).mp (crcMatches_encodeReadFrame Config.params s.inp.address)⟩
  · exact ⟨_, rfl, (crcMatches_iff _ _).mp (crcMatches_encodeWriteFrame Config.params s.inp.address s.inp.value)⟩

end Sys2Proof
end

section
/-! PROOFS. A transmit word read as a receive word (30_encoding.md R53), and the value of an `Ok` outcome (R49). -/

namespace Sys2Proof.Machine

/-! ### The receive fields of a transmit word -/

section
variable (crc : Byte) (addrHi : BitVec 7) (rw : Bit) (low : BitVec 16)

/-- The reply mode stands where the two highest bits of the address-high field stand. -/
theorem modeField_eq_addrHiField (f : Frame) : modeField f = (addrHiField f).extractLsb' 5 2 := by
  ext k hk
  simp [modeField, addrHiField, show 5 + k < 7 by omega, show 17 + (5 + k) = 22 + k by omega]

/-- The status stands where the five lowest bits of the address-high field stand. -/
theorem statusField_eq_addrHiField (f : Frame) : statusField f = (addrHiField f).extractLsb' 0 5 := by
  ext k hk
  simp [statusField, addrHiField, show k < 7 by omega]

/-- The 22 wide bits are the status, the rw-echo and the data, side by side. -/
theorem wideField_eq_append (f : Frame) : wideField f = statusField f ++ rwEchoField f ++ dataField f := by
  refine BitVec.eq_of_getLsbD_eq fun k hk => ?_
  rw [wideField, BitVec.getLsbD_extractLsb', BitVec.getLsbD_append, BitVec.getLsbD_append]
  split
  · simp [dataField, *]
  split
  · obtain rfl : k = 16 := by omega
    simp [rwEchoField]
  · simp [statusField, hk, show k - 16 - 1 < 5 by omega, show 17 + (k - 16 - 1) = k by omega]

theorem modeField_txWord : modeField (txWord crc addrHi rw low) = addrHi.extractLsb' 5 2 := by
  rw [modeField_eq_addrHiField, addrHiField_txWord]

theorem statusField_txWord : statusField (txWord crc addrHi rw low) = addrHi.extractLsb' 0 5 := by
  rw [statusField_eq_addrHiField, addrHiField_txWord]

theorem rwEchoField_txWord : rwEchoField (txWord crc addrHi rw low) = rw := rwField_txWord ..

theorem dataField_txWord : dataField (txWord crc addrHi rw low) = low := lowField_txWord ..

theorem wideField_txWord : wideField (txWord crc addrHi rw low) = addrHi.extractLsb' 0 5 ++ rw ++ low := by
  rw [wideField_eq_append, statusField_txWord, rwEchoField_txWord, dataField_txWord]

end

/-- The low half of the wide bits is the data field. -/
theorem extractLsb'_wideField (f : Frame) : (wideField f).extractLsb' 0 16 = dataField f := by
  rw [wideField_eq_append, BitVec.extractLsb'_append_eq_right]

/-! ### Zero-extension (R49) -/

theorem extractLsb'_setWidth_low {n : Nat} (x : BitVec n) (hn : n ≤ 32) : (x.setWidth 32).extractLsb' 0 n = x := by
  rw [BitVec.extractLsb'_setWidth_of_le (by omega), BitVec.extractLsb'_eq_self]

theorem extractLsb'_setWidth_high {n : Nat} (x : BitVec n) (m : Nat) : (x.setWidth 32).extractLsb' n m = 0#m := by
  ext k hk
  simp

/-- Six bits above the data leave its zero-extension as it is only if they are all zero. -/
theorem setWidth_append_eq_iff (status : BitVec 5) (rw : Bit) (data : BitVec 16) :
    (status ++ rw ++ data).setWidth 32 = data.setWidth 32 ↔ status = 0#5 ∧ rw = 0#1 := by
  have hbits (k : Nat) (hk : k < 32) : ((status ++ rw ++ data).setWidth 32).getLsbD k =
      if k < 16 then data.getLsbD k
      else if k - 16 < 1 then rw.getLsbD (k - 16) else status.getLsbD (k - 16 - 1) := by
    rw [BitVec.getLsbD_setWidth, decide_eq_true hk, Bool.true_and, BitVec.getLsbD_append, BitVec.getLsbD_append]
  constructor
  · intro h
    rw [h] at hbits
    constructor
    · refine BitVec.eq_of_getLsbD_eq fun k hk => ?_
      simpa [show 17 + k < 32 by omega, show ¬17 + k < 16 by omega, show 17 + k - 16 = k + 1 by omega,
        BitVec.getLsbD_of_ge data (17 + k) (by omega)] using (hbits (17 + k) (by omega)).symm
    · refine BitVec.eq_of_getLsbD_eq fun k hk => ?_
      obtain rfl : k = 0 := by omega
      simpa using (hbits 16 (by omega)).symm
  · rintro ⟨rfl, rfl⟩
    refine BitVec.eq_of_getLsbD_eq fun k hk => (hbits k hk).trans ?_
    by_cases hlow : k < 16
    · simp [hlow, hk]
    · simp [hlow, BitVec.getLsbD_of_ge data k (by omega)]

/-! ### Reply modes -/

theorem exists_decodeReply_reply16_iff (P : Params) {f : Frame} {data : BitVec 16} (hdata : dataField f = data) :
    (∃ status statusKind rwEcho crc, decodeReply P f = .reply16 status statusKind rwEcho data crc) ↔
      modeField f = 0b00#2 := by
  constructor
  · rintro ⟨status, statusKind, rwEcho, crc, h⟩
    rw [← viewKindFlag_decodeReply P f, h]
    rfl
  · intro hmode
    exact ⟨_, _, _, _, hdata ▸ decodeReply_00 P f hmode⟩

theorem exists_decodeReply_reply22_iff (P : Params) {f : Frame} {data : BitVec 16} (hdata : dataField f = data) :
    (∃ wide crc, decodeReply P f = .reply22 wide crc ∧ wide.extractLsb' 0 16 = data) ↔ modeField f = 0b01#2 := by
  constructor
  · rintro ⟨wide, crc, h, -⟩
    rw [← viewKindFlag_decodeReply P f, h]
    rfl
  · intro hmode
    exact ⟨_, _, decodeReply_01 P f hmode, (extractLsb'_wideField f).trans hdata⟩

/-- The higher mode bit is bit 6 of the address-high field; it marks the critical and the reserved mode. -/
theorem modeField_of_addrHi_bit6 {f : Frame} (h : (addrHiField f).getLsbD 6 = true) :
    modeField f = 0b10#2 ∨ modeField f = 0b11#2 := by
  have hbit : (modeField f).getLsbD 1 = true := by simpa [modeField_eq_addrHiField] using h
  obtain hmode | hmode | hmode := mode_cases (modeField f)
  · rw [hmode] at hbit; cases hbit
  · rw [hmode] at hbit; cases hbit
  · exact hmode

theorem decodeReply_of_error_mode (P : Params) {f : Frame} (h : modeField f = 0b10#2 ∨ modeField f = 0b11#2) :
    (∃ health, decodeReply P f = .critical health) ∨ decodeReply P f = .reserved :=
  h.imp (fun h => ⟨_, decodeReply_10 P f h⟩) (decodeReply_11 P f)

theorem classifyReply_of_error_mode (P : Params) {f : Frame} (verify : Bit)
    (h : modeField f = 0b10#2 ∨ modeField f = 0b11#2) : ∃ k info, classifyReply P f verify = .err k info := by
  obtain h | h := h
  · exact ⟨_, _, classifyReply_10 P f verify h⟩
  · exact ⟨_, _, classifyReply_11 P f verify h⟩

/-! ### The judgement of a frame whose checksum holds -/

theorem classifyReply_00_of_crcMatches (P : Params) {f : Frame} (verify : Bit) (hmatch : crcMatches P.crc f = true)
    (hmode : modeField f = 0b00#2) :
    classifyReply P f verify =
      if statusField f = 0#5 then .ok ((dataField f).setWidth 32)
      else .err (P.statusError (statusField f)).kind (.status (statusField f)) := by
  have hword := rx16Word_fields f hmode
  have h := classifyReply_rx16Word P (v := verify) (.inr (hword.symm ▸ hmatch))
  rwa [hword] at h

theorem classifyReply_01_of_crcMatches (P : Params) {f : Frame} (verify : Bit) (hmatch : crcMatches P.crc f = true)
    (hmode : modeField f = 0b01#2) : classifyReply P f verify = .ok ((wideField f).setWidth 32) := by
  have hword := rx22Word_fields f hmode
  have h := classifyReply_rx22Word P (v := verify) (.inr (hword.symm ▸ hmatch))
  rwa [hword] at h

end Sys2Proof.Machine

namespace Sys2Proof

open Machine

/-- The write frame of an address, read as a receive frame. -/
theorem encodeWriteFrame_receive_fields (P : Params) (a : Addr) (v : BitVec 16) :
    modeField (encodeWriteFrame P a v) = (P.addrHi a).extractLsb' 5 2 ∧
    statusField (encodeWriteFrame P a v) = (P.addrHi a).extractLsb' 0 5 ∧
    dataField (encodeWriteFrame P a v) = v ∧
    wideField (encodeWriteFrame P a v) = (P.addrHi a).extractLsb' 0 5 ++ P.rwWrite ++ v :=
  ⟨modeField_txWord .., statusField_txWord .., dataField_txWord .., wideField_txWord ..⟩

/-- In mode 01 the status and the flag become the six leading bits of the value. -/
theorem classifyReply_encodeWriteFrame_01 (P : Params) (a : Addr) (v : BitVec 16) (verify : Bit)
    (hmode : (P.addrHi a).extractLsb' 5 2 = 0b01#2) :
    classifyReply P (encodeWriteFrame P a v) verify =
      .ok (((P.addrHi a).extractLsb' 0 5 ++ P.rwWrite ++ v).setWidth 32) := by
  obtain ⟨hmode', -, -, hwide⟩ := encodeWriteFrame_receive_fields P a v
  rw [classifyReply_01_of_crcMatches P verify (crcMatches_encodeWriteFrame P a v) (hmode'.trans hmode), hwide]

theorem classifyReply_encodeWriteFrame_00 (P : Params) (a : Addr) (v : BitVec 16) (verify : Bit)
    (hmode : (P.addrHi a).extractLsb' 5 2 = 0b00#2) :
    classifyReply P (encodeWriteFrame P a v) verify =
      if (P.addrHi a).extractLsb' 0 5 = 0#5 then .ok (v.setWidth 32)
      else .err (P.statusError ((P.addrHi a).extractLsb' 0 5)).kind (.status ((P.addrHi a).extractLsb' 0 5)) := by
  obtain ⟨hmode', hstatus, hdata, -⟩ := encodeWriteFrame_receive_fields P a v
  rw [classifyReply_00_of_crcMatches P verify (crcMatches_encodeWriteFrame P a v) (hmode'.trans hmode), hstatus, hdata]

/-- At REF the mode field of an encoder frame is the two highest bits of the address. -/
theorem ref_addrHi_mode (a : Addr) : (Params.ref.addrHi a).extractLsb' 5 2 = a.extractLsb' 14 2 := by
  change (a.extractLsb' 9 7).extractLsb' 5 2 = _
  ext k hk
  simp [show 5 + k < 7 by omega, show 9 + (5 + k) = 14 + k by omega]

theorem extractLsb'_mode_of_lt {a : Addr} (h : a.toNat < 0x4000) : a.extractLsb' 14 2 = 0b00#2 := by
  have hshift : a.toNat / 2 ^ 14 = 0 := Nat.div_eq_of_lt h
  refine BitVec.eq_of_toNat_eq ?_
  rw [BitVec.extractLsb'_toNat, Nat.shiftRight_eq_div_pow, hshift]
  rfl

/-- Settles O27: the receive fields of a write frame are slices of its address-high field, and each mode judges by
them. -/
theorem roundTripHoldsExactlyUnderItsConditions : Obligations.RoundTripHoldsExactlyUnderItsConditions := by
  refine ⟨fun crc addrHi rw low => ⟨modeField_txWord .., statusField_txWord .., crcField_txWord ..,
    rwEchoField_txWord .., dataField_txWord ..⟩, fun P a v => ?_, ref_addrHi_mode, fun a v ha => ?_⟩
  · obtain ⟨hmode, -, hdata, -⟩ := encodeWriteFrame_receive_fields P a v
    have hbit6 (h : (P.addrHi a).getLsbD 6 = true) :
        modeField (encodeWriteFrame P a v) = 0b10#2 ∨ modeField (encodeWriteFrame P a v) = 0b11#2 :=
      modeField_of_addrHi_bit6 (by rwa [encodeWriteFrame_eq_txWord, addrHiField_txWord])
    refine ⟨crcMatches_encodeWriteFrame P a v, crcMatches_encodeReadFrame P a,
      hmode ▸ exists_decodeReply_reply16_iff P hdata, hmode ▸ exists_decodeReply_reply22_iff P hdata,
      fun h => decodeReply_of_error_mode P (hbit6 h), fun verify => ⟨fun h => ?_, fun h hstatus => ?_, fun h => ?_,
      fun h => classifyReply_of_error_mode P verify (hbit6 h)⟩⟩
    · rw [classifyReply_encodeWriteFrame_00 P a v verify (by rw [h]; rfl), h]
      rfl
    · refine ⟨_, statusKind_of_ne P hstatus, ?_⟩
      rw [classifyReply_encodeWriteFrame_00 P a v verify h, if_neg hstatus]
    · have hok := classifyReply_encodeWriteFrame_01 P a v verify h
      refine ⟨hok, ?_⟩
      rw [hok, CodecOutcome.ok.injEq]
      exact setWidth_append_eq_iff ..
  · obtain ⟨hmode, -, hdata, -⟩ := encodeWriteFrame_receive_fields Params.ref a v
    exact (exists_decodeReply_reply16_iff Params.ref hdata).mpr
      (hmode.trans ((ref_addrHi_mode a).trans (extractLsb'_mode_of_lt ha)))

/-- Settles O34: only a reply of mode 00 or 01 has the outcome `Ok`, with its data field widened. -/
theorem okValueIsZeroExtendedData : Obligations.OkValueIsZeroExtendedData := by
  intro P f verify value h
  obtain hmode | hmode | hmode | hmode := mode_cases (modeField f)
  · have hvalue : value = widenData (dataField f) := by
      rw [classifyReply_00 P f verify hmode] at h
      split at h
      · cases h
      · split at h <;> cases h
        rfl
    rw [hvalue]
    exact .inl ⟨hmode, extractLsb'_setWidth_low _ (by decide), extractLsb'_setWidth_high _ 16⟩
  · have hvalue : value = widenWide (wideField f) := by
      rw [classifyReply_01 P f verify hmode] at h
      split at h <;> cases h
      rfl
    rw [hvalue]
    exact .inr ⟨hmode, extractLsb'_setWidth_low _ (by decide), extractLsb'_setWidth_high _ 10⟩
  · rw [classifyReply_10 P f verify hmode] at h; cases h
  · rw [classifyReply_11 P f verify hmode] at h; cases h

end Sys2Proof
end

section
/-! PROOFS. What a step runs (30_encoding.md R50, R54; 70_reset_and_hazards.md R106), and what is refused (R108). -/

namespace Sys2Proof.Machine

variable {s : State} {i : Instr}

/-- The only instructions that can be refused are the two transmit rows, and only while an exchange is in flight. -/
theorem exec_refused_cases {r : Refusal} (h : exec i s = .refused r) :
    r = .exchangeInFlight ∧ (∃ tx, s.xfer.inFlight = some tx) ∧
      ∃ crc addrHi rw low, i = .txRead crc addrHi rw low ∨ i = .txWrite crc addrHi rw low := by
  cases i with
  | txRead crc addrHi rw low =>
    obtain ⟨hr, hbusy⟩ := startExchange_refused _ h
    exact ⟨hr, hbusy, crc, addrHi, rw, low, .inl rfl⟩
  | txWrite crc addrHi rw low =>
    obtain ⟨hr, hbusy⟩ := startExchange_refused _ h
    exact ⟨hr, hbusy, crc, addrHi, rw, low, .inr rfl⟩
  | crc | verifyCrc | encodeRead | encodeWrite | decode | classify | rx16 | rx22 | rxcrit | rxrsvd => cases h

theorem Xfer.replyFrame_of_reply {x : Xfer} {rx : Frame} (hidle : x.inFlight = none)
    (hresult : x.result = some (.reply rx)) : x.replyFrame = some rx := by
  rw [Xfer.replyFrame, hidle, hresult]

/-- The input ports of an invocation whose frame is there. -/
theorem presentInputs_eq {op : BitVec 3} {operands : Operands} {override : Option Bit} {f : Frame}
    (h : operands.frameIn.frame s.xfer = some f) :
    s.presentInputs op operands override =
      { op := op, address := operands.address, value := operands.value, payload := operands.payload
        frameIn := f, verify := override.getD (BitVec.ofBool s.device.crcEnabled) } := by
  rw [State.presentInputs, h]
  rfl

theorem step_transmit_exec {kind : TxKind} {tx : Frame} {rest : List HostLine}
    (hp : s.program = .transmit kind tx :: rest) :
    step s = exec (decodeTransmit kind tx) { s with program := rest } :=
  step_of_fetch_run (fetch_of_cons hp)

theorem step_receive_exec {rx : Frame} {rest : List HostLine} (hp : s.program = .receive rx :: rest) :
    step s = exec (decodeReceive rx) { s with program := rest } :=
  step_of_fetch_run (fetch_of_cons hp)

end Sys2Proof.Machine

namespace Sys2Proof

open Machine

/-- Settles O39: of all rows only the transmit rows can be refused. -/
theorem onlyASecondTransmitIsEverRefused : Obligations.OnlyASecondTransmitIsEverRefused := by
  intro i s r h
  obtain ⟨hr, ⟨tx, hbusy⟩, hrow⟩ := exec_refused_cases h
  exact ⟨hr, hbusy ▸ Option.some_ne_none tx, hrow⟩

/-- Settles O40: the fetch of each line decodes the same word as the decoder does from the word's bytes. -/
theorem stepRunsTheDecodedInstruction : Obligations.StepRunsTheDecodedInstruction := by
  intro s rest i
  refine ⟨fun op operands override f hp hdecode hsource => ?_, fun kind tx hp hdecode => ?_, fun rx hp hdecode => ?_⟩
  · have hframe : operands.frameIn.frame s.xfer = some f := by
      obtain hgiven | ⟨hreply, hidle, hresult⟩ := hsource
      · rw [hgiven]
        rfl
      · rw [hreply]
        exact Xfer.replyFrame_of_reply hidle hresult
    have hselector : decodeSelector op = .ok i := (decodeSelectorByte_setWidth op).symm.trans hdecode
    rw [step_invoke hp hselector fun _ => hframe ▸ Option.some_ne_none f, presentInputs_eq hframe]
  · cases (Laws.RoundTrip.decode_transmit kind tx).symm.trans hdecode
    exact step_transmit_exec hp
  · cases (Laws.RoundTrip.decode_receive rx).symm.trans hdecode
    exact step_receive_exec hp

end Sys2Proof
end

section
/-! PROOFS. The checksum operations (40_crc.md R55, R60, R61): the values of `crc_out` and `crc_ok`. -/

namespace Sys2Proof.Machine

theorem crcOkFlag_eq (c : CrcParams) (f : Frame) :
    crcOkFlag c f = if crcField f = crc8 c (payloadField f) then 1#1 else 0#1 := by
  simp only [crcOkFlag, crcMatches_iff]

theorem crcOkFlag_of_crcMatches {c : CrcParams} {f : Frame} (h : crcMatches c f = true) : crcOkFlag c f = 1#1 :=
  if_pos h

theorem exec_crc (s : State) :
    exec .crc s = .next (s.drive (writeCrc (crc8 Config.params.crc s.inp.payload))) := rfl

theorem exec_verifyCrc (s : State) :
    exec .verifyCrc s = .next (s.drive (writeCrcOk (crcOkFlag Config.params.crc s.inp.frameIn))) := rfl

end Sys2Proof.Machine

namespace Sys2Proof

open Machine

/-- Settles O1: the operation drives `crc_out` alone; the worked example at REF is evaluated. -/
theorem crcWritesTheChecksum : Obligations.CrcWritesTheChecksum :=
  ⟨rfl, exec_crc, by decide +kernel⟩

/-- Settles O2: the operation drives `crc_ok` alone; the worked examples at REF are evaluated. -/
theorem verifyCrcComparesFieldWithChecksum : Obligations.VerifyCrcComparesFieldWithChecksum := by
  refine ⟨rfl, fun s => ?_, by decide +kernel⟩
  rw [exec_verifyCrc, crcOkFlag_eq]
  rfl

/-- Settles O23: an encoder puts a payload under its checksum, and the frame reaches `frame_in` unchanged. -/
theorem encodedFramesVerify : Obligations.EncodedFramesVerify := by
  refine ⟨fun P a v => ⟨crcMatches_encodeWriteFrame P a v, crcMatches_encodeReadFrame P a⟩, fun s i hi => ?_⟩
  obtain rfl | rfl := hi
  · exact ⟨_, _, rfl, exec_verifyCrc _, crcOkFlag_of_crcMatches (crcMatches_encodeReadFrame ..)⟩
  · exact ⟨_, _, rfl, exec_verifyCrc _, crcOkFlag_of_crcMatches (crcMatches_encodeWriteFrame ..)⟩

end Sys2Proof
end

section
/-! PROOFS. The bit-serial and the table-driven realisation (40_crc.md R59). -/

namespace Sys2Proof.Machine

/-- One clock of the serial register `r` on the top bit of `b`, against one shift of the register that took the whole
byte at once: they differ by the part of the byte that is still to come. -/
theorem shiftOnce_xor_byte (poly r b : Byte) :
    shiftOnce poly (r ^^^ b) = serialBit poly r (b.getLsbD 7) ^^^ b <<< 1 := by
  rw [shiftOnce, serialBit, BitVec.getLsbD_xor, BitVec.shiftLeft_xor_distrib]
  split
  · rw [BitVec.xor_assoc, BitVec.xor_comm (b <<< 1), ← BitVec.xor_assoc]
  · rfl

/-- After `n` bits of the byte the difference is the byte shifted by `n`. -/
theorem shiftTimes_xor_byte (poly r b : Byte) {n : Nat} (hn : n ≤ 8) :
    shiftTimes poly n (r ^^^ b) =
      ((List.range n).map fun i => b.getLsbD (7 - i)).foldl (serialBit poly) r ^^^ b <<< n := by
  induction n with
  | zero => rw [BitVec.shiftLeft_zero]; rfl
  | succ n ih =>
    have hbit : (b <<< n).getLsbD 7 = b.getLsbD (7 - n) := by
      simp [BitVec.getLsbD_shiftLeft, show ¬ 7 < n by omega, -BitVec.getLsbD_eq_getElem]
    rw [shiftTimes_add, ih (by omega), shiftTimes, shiftTimes, shiftOnce_xor_byte, hbit, List.range_succ,
      List.map_append, List.foldl_append, BitVec.shiftLeft_add]
    rfl

/-- A byte clocked in serially: after eight bits nothing of it is left to come. -/
theorem foldl_serialBit_byteBits (poly r b : Byte) :
    (byteBits b).foldl (serialBit poly) r = shiftTimes poly 8 (r ^^^ b) := by
  rw [shiftTimes_xor_byte poly r b (Nat.le_refl 8), BitVec.shiftLeft_eq_zero (Nat.le_refl 8), BitVec.xor_zero]
  rfl

theorem getD_crcTable (poly x : Byte) : (crcTable poly).getD x.toNat 0#8 = shiftTimes poly 8 x := by
  rw [crcTable, List.getD_eq_getElem?_getD, List.getElem?_map, List.getElem?_range x.isLt]
  rw [Option.map_some, Option.getD_some, BitVec.ofNat_toNat, BitVec.setWidth_eq]

/-- Without reflections the checksum is the fold of eight shifts per byte, then `CRC_XOROUT`. -/
theorem crc8_of_no_reflection {c : CrcParams} (p : Payload) (hin : c.refIn = false) (hout : c.refOut = false) :
    crc8 c p = (feedBytes c p).foldl (fun r b => shiftTimes c.poly 8 (r ^^^ b)) c.init ^^^ c.xorOut := by
  have hbyte : crcByte c = fun r b => shiftTimes c.poly 8 (r ^^^ b) := by
    funext r b
    simp [crcByte, feedIn, hin]
  simp [crc8, crc8Bytes, crcFinish, hout, hbyte]

end Sys2Proof.Machine

namespace Sys2Proof

open Machine

/-- Settles O21: byte by byte, the serial clocks give the eight shifts of the register. -/
theorem serialRegisterComputesTheChecksum : Obligations.SerialRegisterComputesTheChecksum := by
  intro c p hin hout
  simp only [crc8_of_no_reflection p hin hout, crc8Serial, List.foldl_flatMap, foldl_serialBit_byteBits]

/-- Settles O22: byte by byte, the table entry is the register after eight shifts. -/
theorem tableComputesTheChecksum : Obligations.TableComputesTheChecksum := by
  intro c p hin hout
  simp only [crc8_of_no_reflection p hin hout, crc8Table, getD_crcTable]

end Sys2Proof
end

section
/-! PROOFS. The checksum is affine (40_crc.md R63): its linear part, and when a damaged frame still verifies. -/

namespace Sys2Proof

/-- The member of the family whose checksum is the linear part of `c`'s: no constant enters or leaves. -/
def CrcParams.linear (c : CrcParams) : CrcParams := { c with init := 0#8, xorOut := 0#8 }

theorem Feed.nodup_order (feed : Feed) : feed.order.Nodup := by
  cases feed <;> decide

theorem Feed.mem_order (feed : Feed) {k : Nat} (hk : k < 3) : k ∈ feed.order := by
  revert k
  cases feed <;> decide

end Sys2Proof

namespace Sys2Proof.Machine

/-! ### Bits -/

theorem getLsbD_one_shiftLeft (w k i : Nat) : (1#w <<< k).getLsbD i = true ↔ k < w ∧ k = i := by
  rw [← BitVec.twoPow_eq, BitVec.getLsbD_twoPow, Bool.and_eq_true, decide_eq_true_iff, decide_eq_true_iff]

theorem getLsbD_extractLsb'_one_shiftLeft (w k start len i : Nat) :
    ((1#w <<< k).extractLsb' start len).getLsbD i = true ↔ i < len ∧ k < w ∧ k = start + i := by
  rw [BitVec.getLsbD_extractLsb', Bool.and_eq_true, decide_eq_true_iff, getLsbD_one_shiftLeft]

theorem ne_zero_of_getLsbD {b : Byte} {i : Nat} (h : b.getLsbD i = true) : b ≠ 0#8 := by
  rintro rfl
  rw [BitVec.getLsbD_zero] at h
  exact Bool.false_ne_true h

theorem exists_getLsbD_of_ne_zero {b : Byte} (hb : b ≠ 0#8) : ∃ i < 8, b.getLsbD i = true := by
  by_contra! h
  exact hb (BitVec.eq_of_getLsbD_eq fun i hi => (Bool.eq_false_of_not_eq_true (h i hi)).trans BitVec.getLsbD_zero.symm)

/-! ### The register over the bytes of a payload -/

/-- The register after the bytes of `p` whose indices are `ks`, in that order. -/
def registerAfter (c : CrcParams) (p : Payload) (ks : List Nat) (r : Byte) : Byte :=
  ks.foldl (fun r k => crcByte c r (payloadByte p k)) r

theorem registerAfter_cons (c : CrcParams) (p : Payload) (k : Nat) (ks : List Nat) (r : Byte) :
    registerAfter c p (k :: ks) r = registerAfter c p ks (crcByte c r (payloadByte p k)) := rfl

theorem crc8_eq_crcFinish (c : CrcParams) (p : Payload) :
    crc8 c p = crcFinish c (registerAfter c p c.feed.order c.init) := by
  rw [crc8, crc8Bytes, feedBytes, List.foldl_map]
  rfl

theorem registerAfter_xor (c : CrcParams) (p q : Payload) (ks : List Nat) (r r' : Byte) :
    registerAfter c (p ^^^ q) ks (r ^^^ r') = registerAfter c p ks r ^^^ registerAfter c q ks r' := by
  induction ks generalizing r r' with
  | nil => rfl
  | cons k ks ih => rw [registerAfter_cons, payloadByte_xor, crcByte_xor, ih, registerAfter_cons, registerAfter_cons]

/-! ### The linear part -/

theorem feedIn_eq_zero_iff (c : CrcParams) (b : Byte) : feedIn c b = 0#8 ↔ b = 0#8 := by
  unfold feedIn
  split
  · exact BitVec.reverse_eq_zero_iff
  · rfl

theorem crc8_linear (c : CrcParams) (p : Payload) :
    crc8 c.linear p =
      if c.refOut then reflect8 (registerAfter c p c.feed.order 0#8) else registerAfter c p c.feed.order 0#8 := by
  rw [crc8_eq_crcFinish]
  exact BitVec.xor_zero

theorem crc8_linear_eq_zero_iff (c : CrcParams) (p : Payload) :
    crc8 c.linear p = 0#8 ↔ registerAfter c p c.feed.order 0#8 = 0#8 := by
  rw [crc8_linear]
  split
  · exact BitVec.reverse_eq_zero_iff
  · rfl

/-- R63: xoring `q` onto the payload xors the linear part of `q`'s checksum onto the checksum. -/
theorem crc8_xor (c : CrcParams) (p q : Payload) : crc8 c (p ^^^ q) = crc8 c p ^^^ crc8 c.linear q := by
  have hregister := registerAfter_xor c p q c.feed.order c.init 0#8
  rw [BitVec.xor_zero] at hregister
  rw [crc8_eq_crcFinish, hregister, crcFinish_xor, ← crc8_linear, ← crc8_eq_crcFinish]

theorem crc8_linear_zero (c : CrcParams) : crc8 c.linear 0#24 = 0#8 := by
  have h := crc8_xor c 0#24 0#24
  rw [BitVec.xor_self] at h
  exact xor_left_eq_self_iff.mp h.symm

theorem crc8_affine (c : CrcParams) (p q : Payload) :
    crc8 c (p ^^^ q) = crc8 c p ^^^ crc8 c q ^^^ crc8 c 0#24 := by
  have hq := crc8_xor c 0#24 q
  rw [BitVec.zero_xor] at hq
  rw [crc8_xor, hq, BitVec.xor_comm (crc8 c 0#24), BitVec.xor_assoc, xor_cancel_right]

theorem crc8_eq_iff (c : CrcParams) (p q : Payload) : crc8 c p = crc8 c q ↔ crc8 c.linear (p ^^^ q) = 0#8 := by
  have hq := crc8_xor c p (p ^^^ q)
  rw [xor_cancel_left] at hq
  rw [hq, eq_comm]
  exact xor_left_eq_self_iff

theorem crc8_eq_iff_xor (c : CrcParams) (p q : Payload) :
    crc8 c p = crc8 c q ↔ crc8 c (p ^^^ q) = crc8 c 0#24 := by
  rw [crc8_eq_iff, crc8_eq_iff c (p ^^^ q), BitVec.xor_zero]

/-! ### Damaged frames -/

theorem crcField_xor (f g : Frame) : crcField (f ^^^ g) = crcField f ^^^ crcField g := BitVec.extractLsb'_xor

theorem payloadField_xor (f g : Frame) : payloadField (f ^^^ g) = payloadField f ^^^ payloadField g :=
  BitVec.extractLsb'_xor

theorem payloadField_flip (k : Nat) : payloadField (1#32 <<< k) = 1#24 <<< k := by
  refine BitVec.eq_of_getLsbD_eq fun i hi => ?_
  rw [Bool.eq_iff_iff, payloadField, getLsbD_extractLsb'_one_shiftLeft, getLsbD_one_shiftLeft]
  omega

theorem crcField_flip_low {k : Nat} (hk : k < 24) : crcField (1#32 <<< k) = 0#8 := by
  refine BitVec.eq_of_getLsbD_eq fun i hi => ?_
  rw [BitVec.getLsbD_zero, ← Bool.not_eq_true, crcField, getLsbD_extractLsb'_one_shiftLeft]
  omega

theorem crcField_flip_high {k : Nat} (hlow : 24 ≤ k) (hk : k < 32) : crcField (1#32 <<< k) ≠ 0#8 := by
  refine ne_zero_of_getLsbD (i := k - 24) ?_
  rw [crcField, getLsbD_extractLsb'_one_shiftLeft]
  omega

/-- An error pattern on a verifying frame goes unseen exactly where its CRC field is the linear checksum of its
payload. -/
theorem crcMatches_xor_iff {c : CrcParams} {f : Frame} (hf : crcMatches c f = true) (g : Frame) :
    crcMatches c (f ^^^ g) = true ↔ crcField g = crc8 c.linear (payloadField g) := by
  rw [crcMatches_iff] at hf ⊢
  rw [crcField_xor, payloadField_xor, crc8_xor, hf]
  exact BitVec.xor_right_inj _

/-- R63: a flipped bit of the CRC field leaves the expected checksum as it was. -/
theorem crcMatches_flip_crcField {c : CrcParams} {f : Frame} {k : Nat} (hlow : 24 ≤ k) (hk : k < 32)
    (hf : crcMatches c f = true) : crcMatches c (f ^^^ (1#32 <<< k)) = false := by
  rw [← Bool.not_eq_true, crcMatches_xor_iff hf, payloadField_flip, BitVec.shiftLeft_eq_zero hlow, crc8_linear_zero]
  exact crcField_flip_high hlow hk

end Sys2Proof.Machine
end

section
/-! PROOFS. Registers that no shift brings to zero (40_crc.md R62): with `x^t` the highest power of `x` in the
generator, these are the nonzero multiples of `x^t`, and the lone bits below, which are shifted up to `x^t`. -/

namespace Sys2Proof.Machine

variable {poly r : Byte} {t : Nat}

/-- Bit `t` is the lowest that is set. -/
def LowestBit (poly : Byte) (t : Nat) : Prop := poly.getLsbD t = true ∧ ∀ i < t, poly.getLsbD i = false

/-- A lone bit below `t`, or a nonzero byte whose bits below `t` are clear. -/
def Survives (t : Nat) (r : Byte) : Prop :=
  (∃ m < t, r = 1#8 <<< m) ∨ (r ≠ 0#8 ∧ ∀ i < t, r.getLsbD i = false)

theorem exists_lowestBit (hpoly : poly ≠ 0#8) : ∃ t, LowestBit poly t := by
  have hbit : ∃ i, poly.getLsbD i = true := (exists_getLsbD_of_ne_zero hpoly).imp fun _ h => h.2
  exact ⟨Nat.find hbit, Nat.find_spec hbit, fun i hi => Bool.eq_false_of_not_eq_true (Nat.find_min hbit hi)⟩

theorem survives_bit (t : Nat) {m : Nat} (hm : m < 8) : Survives t (1#8 <<< m) := by
  by_cases hmt : m < t
  · exact .inl ⟨m, hmt, rfl⟩
  · refine .inr ⟨ne_zero_of_getLsbD ((getLsbD_one_shiftLeft ..).mpr ⟨hm, rfl⟩), fun i hi => ?_⟩
    rw [← Bool.not_eq_true, getLsbD_one_shiftLeft]
    omega

theorem survives_of_ne_zero (hr : r ≠ 0#8) : Survives 0 r := .inr ⟨hr, fun _ hi => absurd hi (Nat.not_lt_zero _)⟩

theorem Survives.ne_zero (ht : t ≤ 8) (h : Survives t r) : r ≠ 0#8 := by
  obtain ⟨m, hm, rfl⟩ | ⟨hr, -⟩ := h
  · exact ne_zero_of_getLsbD ((getLsbD_one_shiftLeft ..).mpr ⟨hm.trans_le ht, rfl⟩)
  · exact hr

theorem getLsbD_shiftOnce {i : Nat} (hi : i < 8) :
    (shiftOnce poly r).getLsbD i =
      ((decide (0 < i) && r.getLsbD (i - 1)) ^^ (r.getLsbD 7 && poly.getLsbD i)) := by
  unfold shiftOnce
  have hshift : (r <<< 1).getLsbD i = (decide (0 < i) && r.getLsbD (i - 1)) := by
    rw [BitVec.getLsbD_shiftLeft, Bool.eq_iff_iff]
    simp [hi, Nat.pos_iff_ne_zero]
  split
  · rw [BitVec.getLsbD_xor, hshift, ‹r.getLsbD 7 = true›, Bool.true_and]
  · rw [hshift, Bool.eq_false_of_not_eq_true ‹¬ r.getLsbD 7 = true›, Bool.false_and, Bool.xor_false]

theorem LowestBit.lt (h : LowestBit poly t) : t < 8 := BitVec.lt_of_getLsbD h.1

/-- A nonzero multiple of `x^t` stays one: a bit that is shifted out puts the polynomial's bit `t` where none was. -/
theorem shiftOnce_multiple (hpoly : LowestBit poly t) (hr : r ≠ 0#8) (hlow : ∀ i < t, r.getLsbD i = false) :
    shiftOnce poly r ≠ 0#8 ∧ ∀ i < t, (shiftOnce poly r).getLsbD i = false := by
  have ht := hpoly.lt
  obtain ⟨hbit, hpolylow⟩ := hpoly
  constructor
  · cases htop : r.getLsbD 7 with
    | true =>
      refine ne_zero_of_getLsbD (i := t) ?_
      rw [getLsbD_shiftOnce ht, htop, hbit]
      cases t with
      | zero => rfl
      | succ t => simp [hlow t (Nat.lt_succ_self t)]
    | false =>
      obtain ⟨i, hi, hri⟩ := exists_getLsbD_of_ne_zero hr
      have hi7 : i ≠ 7 := by
        rintro rfl
        exact absurd (htop.symm.trans hri) (by decide)
      refine ne_zero_of_getLsbD (i := i + 1) ?_
      rw [getLsbD_shiftOnce (by omega), htop, Nat.add_sub_cancel, hri]
      simp
  · intro i hi
    rw [getLsbD_shiftOnce (by omega), hpolylow i hi, hlow (i - 1) (by omega), Bool.and_false, Bool.and_false]
    rfl

theorem Survives.shiftOnce (hpoly : LowestBit poly t) (h : Survives t r) : Survives t (shiftOnce poly r) := by
  have ht := hpoly.lt
  obtain ⟨m, hm, rfl⟩ | ⟨hr, hlow⟩ := h
  · have htop : ¬ (1#8 <<< m).getLsbD 7 = true := by
      rw [getLsbD_one_shiftLeft]
      omega
    rw [Machine.shiftOnce, if_neg htop, ← BitVec.shiftLeft_add]
    exact survives_bit t (by omega)
  · exact .inr (shiftOnce_multiple hpoly hr hlow)

theorem Survives.shiftTimes (hpoly : LowestBit poly t) (n : Nat) (h : Survives t r) :
    Survives t (shiftTimes poly n r) := by
  induction n generalizing r with
  | zero => exact h
  | succ n ih => exact ih (h.shiftOnce hpoly)

/-! ### The checksum of a payload with one nonzero byte -/

variable {c : CrcParams} {p : Payload}

theorem crcByte_zero_right (c : CrcParams) (r : Byte) : crcByte c r 0#8 = shiftTimes c.poly 8 r := by
  rw [crcByte, (feedIn_eq_zero_iff c 0#8).mpr rfl, BitVec.xor_zero]

theorem crcByte_zero_left (c : CrcParams) (b : Byte) : crcByte c 0#8 b = shiftTimes c.poly 8 (feedIn c b) := by
  rw [crcByte, BitVec.zero_xor]

/-- Zero bytes only shift the register. -/
theorem Survives.registerAfter (hpoly : LowestBit c.poly t) {ks : List Nat}
    (hzero : ∀ k ∈ ks, payloadByte p k = 0#8) (h : Survives t r) : Survives t (registerAfter c p ks r) := by
  induction ks generalizing r with
  | nil => exact h
  | cons k ks ih =>
    rw [registerAfter_cons, hzero k List.mem_cons_self, crcByte_zero_right]
    exact ih (fun i hi => hzero i (List.mem_cons_of_mem k hi)) (h.shiftTimes hpoly 8)

/-- Zero bytes before byte `j` leave the zero register, and those after it only shift what it has put there. -/
theorem survives_registerAfter_of_one_byte (hpoly : LowestBit c.poly t) {j : Nat}
    (hbyte : Survives t (feedIn c (payloadByte p j))) (hzero : ∀ k, k ≠ j → payloadByte p k = 0#8) {ks : List Nat}
    (hnodup : ks.Nodup) (hj : j ∈ ks) : Survives t (registerAfter c p ks 0#8) := by
  induction ks with
  | nil => cases hj
  | cons k ks ih =>
    obtain ⟨hk, hks⟩ := List.nodup_cons.mp hnodup
    rw [registerAfter_cons]
    by_cases hkj : k = j
    · subst hkj
      rw [crcByte_zero_left]
      exact (hbyte.shiftTimes hpoly 8).registerAfter hpoly fun i hi => hzero i fun h => hk (h ▸ hi)
    · rw [hzero k hkj, crcByte_zero_right, shiftTimes_zero]
      exact ih hks ((List.mem_cons.mp hj).resolve_left (Ne.symm hkj))

theorem crc8_linear_ne_zero (hpoly : LowestBit c.poly t) {j : Nat} (hj : j < 3)
    (hbyte : Survives t (feedIn c (payloadByte p j))) (hzero : ∀ k, k ≠ j → payloadByte p k = 0#8) :
    crc8 c.linear p ≠ 0#8 := by
  rw [ne_eq, crc8_linear_eq_zero_iff]
  exact (survives_registerAfter_of_one_byte hpoly hbyte hzero c.feed.nodup_order (c.feed.mem_order hj)).ne_zero
    hpoly.lt.le

/-! ### Single flipped bits -/

theorem feedIn_bit (c : CrcParams) {m : Nat} (hm : m < 8) : ∃ n < 8, feedIn c (1#8 <<< m) = 1#8 <<< n := by
  unfold feedIn
  split
  · refine ⟨7 - m, by omega, BitVec.eq_of_getLsbD_eq fun i hi => ?_⟩
    rw [getLsbD_reflect8 _ _ hi, Bool.eq_iff_iff, getLsbD_one_shiftLeft, getLsbD_one_shiftLeft]
    omega
  · exact ⟨m, hm, rfl⟩

theorem payloadByte_bit_same {k : Nat} (hk : k < 24) : payloadByte (1#24 <<< k) (k / 8) = 1#8 <<< (k % 8) := by
  refine BitVec.eq_of_getLsbD_eq fun i hi => ?_
  rw [Bool.eq_iff_iff, payloadByte, getLsbD_extractLsb'_one_shiftLeft, getLsbD_one_shiftLeft]
  omega

theorem payloadByte_bit_other {k j : Nat} (hj : j ≠ k / 8) : payloadByte (1#24 <<< k) j = 0#8 := by
  refine BitVec.eq_of_getLsbD_eq fun i hi => ?_
  rw [BitVec.getLsbD_zero, ← Bool.not_eq_true, payloadByte, getLsbD_extractLsb'_one_shiftLeft]
  omega

theorem crc8_linear_bit_ne_zero (hpoly : c.poly ≠ 0#8) {k : Nat} (hk : k < 24) :
    crc8 c.linear (1#24 <<< k) ≠ 0#8 := by
  obtain ⟨t, ht⟩ := exists_lowestBit hpoly
  obtain ⟨n, hn, hfeed⟩ := feedIn_bit c (m := k % 8) (by omega)
  refine crc8_linear_ne_zero ht (j := k / 8) (by omega) ?_ fun j hj => payloadByte_bit_other hj
  rw [payloadByte_bit_same hk, hfeed]
  exact survives_bit t hn

theorem crcMatches_flip_payload (hpoly : c.poly ≠ 0#8) {f : Frame} {k : Nat} (hk : k < 24)
    (hf : crcMatches c f = true) : crcMatches c (f ^^^ (1#32 <<< k)) = false := by
  rw [← Bool.not_eq_true, crcMatches_xor_iff hf, payloadField_flip, crcField_flip_low hk]
  exact (crc8_linear_bit_ne_zero hpoly hk).symm

/-! ### The polynomial `0x00` -/

/-- Without a polynomial eight shifts empty the register. -/
theorem shiftTimes_poly_zero (n : Nat) (r : Byte) : shiftTimes 0#8 n r = r <<< n := by
  induction n generalizing r with
  | zero => rw [BitVec.shiftLeft_zero]; rfl
  | succ n ih =>
    have hshift : shiftOnce 0#8 r = r <<< 1 := by rw [Machine.shiftOnce, BitVec.xor_zero, ite_self]
    rw [Machine.shiftTimes, hshift, ih, ← BitVec.shiftLeft_add, Nat.add_comm]

theorem crc8_linear_of_poly_zero (hpoly : c.poly = 0#8) (p : Payload) : crc8 c.linear p = 0#8 := by
  have hbyte (r b : Byte) : crcByte c r b = 0#8 := by
    rw [crcByte, hpoly, shiftTimes_poly_zero, BitVec.shiftLeft_eq_zero (Nat.le_refl 8)]
  rw [crc8_linear_eq_zero_iff]
  induction c.feed.order with
  | nil => rfl
  | cons k ks ih => rw [registerAfter_cons, hbyte, ih]

end Sys2Proof.Machine
end

section
/-! PROOFS. The map from payloads to checksums (40_crc.md R63, R64): where it is onto, and how large its fibres are;
then the obligations on the checksum's detection of errors. -/

namespace Sys2Proof.Machine

variable {c : CrcParams}

theorem payloadByte_setWidth_zero (b : Byte) : payloadByte (b.setWidth 24) 0 = b := by
  refine BitVec.eq_of_getLsbD_eq fun i hi => ?_
  simp [payloadByte, hi, show i < 24 by omega, -BitVec.getLsbD_eq_getElem]

theorem payloadByte_setWidth_other (b : Byte) {j : Nat} (hj : j ≠ 0) : payloadByte (b.setWidth 24) j = 0#8 := by
  refine BitVec.eq_of_getLsbD_eq fun i hi => ?_
  simp [payloadByte, hi, BitVec.getLsbD_of_ge b (8 * j + i) (by omega)]

/-- With `CRC_POLY[0] = 1` no nonzero register is shifted to zero, so byte 0 of the payload alone reaches every
checksum: it does so injectively, on a finite type. -/
theorem crc8_surjective (hpoly : c.poly.getLsbD 0 = true) : Function.Surjective (crc8 c) := by
  have hlowest : LowestBit c.poly 0 := ⟨hpoly, fun _ hi => absurd hi (Nat.not_lt_zero _)⟩
  have hinj : Function.Injective fun b : Byte => crc8 c (b.setWidth 24) := by
    intro b b' h
    have hlinear : crc8 c.linear ((b ^^^ b').setWidth 24) = 0#8 := by
      rw [BitVec.setWidth_xor]
      exact (crc8_eq_iff ..).mp h
    by_contra hne
    refine crc8_linear_ne_zero hlowest (j := 0) (by decide) (survives_of_ne_zero ?_)
      (fun j hj => payloadByte_setWidth_other _ hj) hlinear
    rw [payloadByte_setWidth_zero, ne_eq, feedIn_eq_zero_iff]
    exact fun hzero => hne (BitVec.xor_eq_zero_iff.mp hzero)
  intro b
  obtain ⟨x, hx⟩ := Finite.surjective_of_injective hinj b
  exact ⟨_, hx⟩

theorem natCard_bitVec (n : Nat) : Nat.card (BitVec n) = 2 ^ n := by
  rw [Nat.card_eq_fintype_card, ← FinEnum.card_eq_fintypeCard, FinEnum.card_bitVec]

theorem crc8_not_injective (c : CrcParams) : ¬ Function.Injective (crc8 c) := by
  intro h
  have hcard := Nat.card_le_card_of_injective _ h
  rw [natCard_bitVec, natCard_bitVec] at hcard
  exact absurd hcard (by decide)

/-- Between checksums that are taken, xoring the difference of two payloads is a bijection of the fibres. -/
theorem natCard_fibre_eq (c : CrcParams) (p q : Payload) :
    Nat.card { x : Payload // crc8 c x = crc8 c p } = Nat.card { x : Payload // crc8 c x = crc8 c q } := by
  refine Nat.card_congr ((Equiv.xor (p ^^^ q)).subtypeEquiv fun x => ?_)
  have hshift : x ^^^ p = (p ^^^ q) ^^^ x ^^^ q := by
    rw [BitVec.xor_comm _ x, BitVec.xor_assoc, xor_cancel_right]
  rw [Equiv.xor_apply, crc8_eq_iff, crc8_eq_iff c _ q, hshift]

theorem natCard_fibre_of_surjective (h : Function.Surjective (crc8 c)) (b : Byte) :
    Nat.card { x : Payload // crc8 c x = b } = 2 ^ 16 := by
  have hfibres (b' : Byte) : Nat.card { x : Payload // crc8 c x = b' } = Nat.card { x : Payload // crc8 c x = b } := by
    obtain ⟨p, rfl⟩ := h b
    obtain ⟨q, rfl⟩ := h b'
    exact natCard_fibre_eq c q p
  have hsum : 2 ^ 24 = 2 ^ 8 * Nat.card { x : Payload // crc8 c x = b } := by
    calc 2 ^ 24 = Nat.card Payload := (natCard_bitVec 24).symm
      _ = Nat.card ((b' : Byte) × { x : Payload // crc8 c x = b' }) :=
        Nat.card_congr (Equiv.sigmaFiberEquiv (crc8 c)).symm
      _ = ∑ b' : Byte, Nat.card { x : Payload // crc8 c x = b' } := Nat.card_sigma
      _ = Nat.card Byte * Nat.card { x : Payload // crc8 c x = b } := by
        rw [Finset.sum_congr rfl fun b' _ => hfibres b', Finset.sum_const, Finset.card_univ, smul_eq_mul,
          Nat.card_eq_fintype_card (α := Byte)]
      _ = 2 ^ 8 * Nat.card { x : Payload // crc8 c x = b } := by rw [natCard_bitVec]
  omega

end Sys2Proof.Machine

namespace Sys2Proof

open Machine

/-- Settles O17: a flipped payload bit changes the checksum by its linear part, which is never zero for a nonzero
polynomial; with `0x00` the flip of bit 0 on any verifying frame goes unseen. -/
theorem singleBitDetectionIffPolyNonzero : Obligations.SingleBitDetectionIffPolyNonzero := by
  intro c
  refine ⟨fun h hpoly => ?_, fun hpoly f k hk hf => crcMatches_flip_payload hpoly hk hf⟩
  have hf : crcMatches c (withChecksum c 0#24) = true := crcMatches_withChecksum c 0#24
  have hunseen : crcMatches c (withChecksum c 0#24 ^^^ (1#32 <<< 0)) = true := by
    rw [crcMatches_xor_iff hf, crc8_linear_of_poly_zero hpoly, crcField_flip_low (by decide)]
  exact Bool.false_ne_true ((h _ 0 (by decide) hf).symm.trans hunseen)

/-- Settles O19: each clause is a law of the linear part. -/
theorem checksumIsAffine : Obligations.ChecksumIsAffine := fun c =>
  ⟨crc8_affine c, crc8_eq_iff_xor c, crc8_surjective, fun _ _ hlow hk hf => crcMatches_flip_crcField hlow hk hf⟩

/-- Settles O20: payloads outnumber bytes, and the fibres of a checksum that is onto are all of one size. -/
theorem checksumNeverIdentifiesItsPayload : Obligations.ChecksumNeverIdentifiesItsPayload := fun c =>
  ⟨crc8_not_injective c, natCard_fibre_of_surjective,
    fun hpoly => natCard_fibre_of_surjective (crc8_surjective hpoly)⟩

end Sys2Proof
end

section
/-! PROOFS. The encoder (41_encode.md R65, R66, R68): the fields of its two frames, and what of the request and of the
parameters a frame depends on. -/

namespace Sys2Proof.Machine

/-! ### The fields of the two frames -/

section
variable (P : Params) (a : Addr) (v : BitVec 16)

@[simp] theorem addrHiField_encodeReadFrame : addrHiField (encodeReadFrame P a) = P.addrHi a := addrHiField_txWord ..

@[simp] theorem rwField_encodeReadFrame : rwField (encodeReadFrame P a) = P.rwRead := rwField_txWord ..

@[simp] theorem lowField_encodeReadFrame : lowField (encodeReadFrame P a) = P.rdLow a := lowField_txWord ..

@[simp] theorem payloadField_encodeReadFrame :
    payloadField (encodeReadFrame P a) = txPayload (P.addrHi a) P.rwRead (P.rdLow a) := payloadField_joinFrame ..

@[simp] theorem addrHiField_encodeWriteFrame : addrHiField (encodeWriteFrame P a v) = P.addrHi a :=
  addrHiField_txWord ..

@[simp] theorem rwField_encodeWriteFrame : rwField (encodeWriteFrame P a v) = P.rwWrite := rwField_txWord ..

@[simp] theorem lowField_encodeWriteFrame : lowField (encodeWriteFrame P a v) = v := lowField_txWord ..

@[simp] theorem payloadField_encodeWriteFrame :
    payloadField (encodeWriteFrame P a v) = txPayload (P.addrHi a) P.rwWrite v := payloadField_joinFrame ..

end

/-! ### What a frame determines -/

section
variable (P : Params)

/-- R41: the flag of a write is never that of a read. -/
theorem rwWrite_ne_rwRead : P.rwWrite ≠ P.rwRead := by
  have hflag : ∀ b : Bit, b ≠ 1#1 - b := by decide
  exact hflag P.rwWrite

theorem encodeReadFrame_eq_iff (a b : Addr) :
    encodeReadFrame P a = encodeReadFrame P b ↔ (P.addrHi a, P.rdLow a) = (P.addrHi b, P.rdLow b) := by
  rw [Prod.mk.injEq]
  constructor
  · intro h
    exact ⟨by simpa using congrArg addrHiField h, by simpa using congrArg lowField h⟩
  · rintro ⟨hhi, hlow⟩
    rw [encodeReadFrame, encodeReadFrame, hhi, hlow]

theorem encodeWriteFrame_eq_iff (a b : Addr) (v : BitVec 16) :
    encodeWriteFrame P a v = encodeWriteFrame P b v ↔ P.addrHi a = P.addrHi b := by
  constructor
  · intro h
    simpa using congrArg addrHiField h
  · intro hhi
    rw [encodeWriteFrame, encodeWriteFrame, hhi]

theorem encodeReadFrame_injective_iff :
    Function.Injective (encodeReadFrame P) ↔ Function.Injective fun a => (P.addrHi a, P.rdLow a) :=
  forall₂_congr fun a b => imp_congr_left (encodeReadFrame_eq_iff P a b)

theorem encodeWriteFrame_injOn_iff (v : BitVec 16) (inUse : Set Addr) :
    Set.InjOn (fun a => encodeWriteFrame P a v) inUse ↔ Set.InjOn P.addrHi inUse :=
  forall₂_congr fun a _ => forall₂_congr fun b _ => imp_congr_left (encodeWriteFrame_eq_iff P a b v)

end

/-- At REF the low field of a read frame is the address itself. -/
theorem encodeReadFrame_ref_injective : Function.Injective (encodeReadFrame Params.ref) :=
  (encodeReadFrame_injective_iff _).mpr fun _ _ h => congrArg Prod.snd h

/-- At REF the address-high field is the same for the addresses 0 and 1. -/
theorem ref_addrHi_not_injective : ¬ Function.Injective Params.ref.addrHi := by
  intro h
  have hsame : Params.ref.addrHi 0#16 = Params.ref.addrHi 1#16 := by decide
  exact absurd (h hsame) (by decide)

/-! ### Which parameters a frame depends on -/

section
variable {P Q : Params}

theorem payloadField_encodeReadFrame_congr (hhi : P.addrHi = Q.addrHi) (hlow : P.rdLow = Q.rdLow)
    (hrw : P.rwWrite = Q.rwWrite) (a : Addr) :
    payloadField (encodeReadFrame P a) = payloadField (encodeReadFrame Q a) := by
  simp [Params.rwRead, hhi, hlow, hrw]

theorem payloadField_encodeWriteFrame_congr (hhi : P.addrHi = Q.addrHi) (hrw : P.rwWrite = Q.rwWrite) (a : Addr)
    (v : BitVec 16) : payloadField (encodeWriteFrame P a v) = payloadField (encodeWriteFrame Q a v) := by
  simp [hhi, hrw]

theorem crcField_of_encoded {f : Frame} (h : ∃ a v, f = encodeReadFrame P a ∨ f = encodeWriteFrame P a v) :
    crcField f = crc8 P.crc (payloadField f) := by
  rw [← crcMatches_iff]
  obtain ⟨a, v, rfl | rfl⟩ := h
  · exact crcMatches_encodeReadFrame P a
  · exact crcMatches_encodeWriteFrame P a v

theorem crcField_eq_of_encoded {f g : Frame} (hcrc : P.crc = Q.crc)
    (hf : ∃ a v, f = encodeReadFrame P a ∨ f = encodeWriteFrame P a v)
    (hg : ∃ a v, g = encodeReadFrame Q a ∨ g = encodeWriteFrame Q a v) (hpayload : payloadField f = payloadField g) :
    crcField f = crcField g := by
  rw [crcField_of_encoded hf, crcField_of_encoded hg, hcrc, hpayload]

end

/-! ### The two operations -/

theorem exec_encodeRead (s : State) :
    exec .encodeRead s = .next (s.drive (writeFrame (encodeReadFrame Config.params s.inp.address))) := rfl

theorem exec_encodeWrite (s : State) :
    exec .encodeWrite s = .next (s.drive (writeFrame (encodeWriteFrame Config.params s.inp.address s.inp.value))) :=
  rfl

end Sys2Proof.Machine

namespace Sys2Proof

open Machine

/-- Settles O25: two frames of one kind are equal exactly where their fields are, and the CRC field is a function of the
payload. -/
theorem transmitFrameDeterminesItsRequest : Obligations.TransmitFrameDeterminesItsRequest := by
  refine ⟨fun P a b v => ⟨lowField_encodeWriteFrame P a v, ?_, addrHiField_encodeWriteFrame P a v,
      addrHiField_encodeReadFrame P a⟩,
    encodeReadFrame_injective_iff, encodeReadFrame_ref_injective, encodeWriteFrame_injOn_iff, ref_addrHi_not_injective,
    fun P Q a v hhi hlow hrw => ⟨payloadField_encodeWriteFrame_congr hhi hrw a v,
      payloadField_encodeReadFrame_congr hhi hlow hrw a⟩,
    fun P Q f g => crcField_eq_of_encoded⟩
  change rwField (encodeWriteFrame P a v) ≠ rwField (encodeReadFrame P b)
  rw [rwField_encodeWriteFrame, rwField_encodeReadFrame]
  exact rwWrite_ne_rwRead P

/-- Settles O3: the operation drives `frame_out` alone, with the read frame of its parameters; the worked example at REF
is evaluated. -/
theorem encodeReadBuildsTheReadRequest : Obligations.EncodeReadBuildsTheReadRequest := by
  refine ⟨rfl, fun s => ⟨encodeReadFrame Config.params s.inp.address, exec_encodeRead s, ?_,
    addrHiField_encodeReadFrame .., rwField_encodeReadFrame .., lowField_encodeReadFrame ..⟩, by decide +kernel⟩
  exact (crcMatches_iff ..).mp (crcMatches_encodeReadFrame ..)

/-- Settles O4: the operation drives `frame_out` alone, with the write frame of its parameters; the worked examples at
REF are evaluated. -/
theorem encodeWriteBuildsTheWriteRequest : Obligations.EncodeWriteBuildsTheWriteRequest := by
  refine ⟨rfl, fun s => ⟨encodeWriteFrame Config.params s.inp.address s.inp.value, exec_encodeWrite s, ?_,
    addrHiField_encodeWriteFrame .., rwField_encodeWriteFrame .., lowField_encodeWriteFrame ..⟩, by decide +kernel⟩
  exact (crcMatches_iff ..).mp (crcMatches_encodeWriteFrame ..)

end Sys2Proof
end

section
/-! PROOFS. A flipped bit and a replaced CRC field, field by field (30_encoding.md R45, R46; 40_crc.md R62, R63),
and the judgement of a frame that the CRC test does not reject (42_decode.md R78, R79). -/

namespace Sys2Proof.Machine

/-! ### Slices of a word with one flipped bit -/

section
variable {w k start : Nat} (x : BitVec w) (len : Nat)

theorem extractLsb'_flip_outside (h : k < start ∨ start + len ≤ k) :
    (x ^^^ (1#w <<< k)).extractLsb' start len = x.extractLsb' start len := by
  have hbit : (1#w <<< k).extractLsb' start len = 0#len := by
    refine BitVec.eq_of_getLsbD_eq fun i hi => ?_
    rw [BitVec.getLsbD_zero, ← Bool.not_eq_true, getLsbD_extractLsb'_one_shiftLeft]
    omega
  rw [BitVec.extractLsb'_xor, hbit, BitVec.xor_zero]

theorem extractLsb'_flip_inside (hstart : start ≤ k) (hk : k < w) :
    (x ^^^ (1#w <<< k)).extractLsb' start len = x.extractLsb' start len ^^^ (1#len <<< (k - start)) := by
  have hbit : (1#w <<< k).extractLsb' start len = 1#len <<< (k - start) := by
    refine BitVec.eq_of_getLsbD_eq fun i hi => ?_
    rw [Bool.eq_iff_iff, getLsbD_extractLsb'_one_shiftLeft, getLsbD_one_shiftLeft]
    omega
  rw [BitVec.extractLsb'_xor, hbit]

end

/-! ### The fields and the checksum of a frame with one flipped bit -/

section
variable {f : Frame} {k : Nat}

theorem modeField_flip_outside (f : Frame) (h : k < 22 ∨ 24 ≤ k) : modeField (f ^^^ (1#32 <<< k)) = modeField f :=
  extractLsb'_flip_outside f 2 h

theorem modeField_flip_22 (f : Frame) : modeField (f ^^^ (1#32 <<< 22)) = modeField f ^^^ 0b01#2 :=
  extractLsb'_flip_inside f 2 (start := 22) (by decide) (by decide)

theorem modeField_flip_23 (f : Frame) : modeField (f ^^^ (1#32 <<< 23)) = modeField f ^^^ 0b10#2 :=
  extractLsb'_flip_inside f 2 (start := 22) (by decide) (by decide)

theorem statusField_flip_outside (f : Frame) (h : k < 17 ∨ 22 ≤ k) :
    statusField (f ^^^ (1#32 <<< k)) = statusField f :=
  extractLsb'_flip_outside f 5 h

theorem statusField_flip_inside (f : Frame) (hlow : 17 ≤ k) (hk : k < 32) :
    statusField (f ^^^ (1#32 <<< k)) = statusField f ^^^ (1#5 <<< (k - 17)) :=
  extractLsb'_flip_inside f 5 hlow hk

theorem dataField_flip_outside (f : Frame) (h : 16 ≤ k) : dataField (f ^^^ (1#32 <<< k)) = dataField f :=
  extractLsb'_flip_outside f 16 (.inr (by omega))

theorem dataField_flip_inside (f : Frame) (hk : k < 32) :
    dataField (f ^^^ (1#32 <<< k)) = dataField f ^^^ (1#16 <<< k) :=
  extractLsb'_flip_inside f 16 (Nat.zero_le k) hk

theorem wideField_flip_outside (f : Frame) (h : 22 ≤ k) : wideField (f ^^^ (1#32 <<< k)) = wideField f :=
  extractLsb'_flip_outside f 22 (.inr (by omega))

theorem wideField_flip_inside (f : Frame) (hk : k < 32) :
    wideField (f ^^^ (1#32 <<< k)) = wideField f ^^^ (1#22 <<< k) :=
  extractLsb'_flip_inside f 22 (Nat.zero_le k) hk

theorem healthField_flip_outside (f : Frame) (h : 8 ≤ k) : healthField (f ^^^ (1#32 <<< k)) = healthField f :=
  extractLsb'_flip_outside f 8 (.inr (by omega))

theorem crcField_flip_outside (f : Frame) (h : k < 24) : crcField (f ^^^ (1#32 <<< k)) = crcField f :=
  extractLsb'_flip_outside f 8 (.inl h)

theorem payloadField_flip_outside (f : Frame) (h : 24 ≤ k) : payloadField (f ^^^ (1#32 <<< k)) = payloadField f :=
  extractLsb'_flip_outside f 24 (.inr (by omega))

theorem data_mode_of_not_error_mode (hcritical : modeField f ≠ 0b10#2) (hreserved : modeField f ≠ 0b11#2) :
    modeField f = 0b00#2 ∨ modeField f = 0b01#2 := by
  obtain h | h | h | h := mode_cases (modeField f)
  · exact .inl h
  · exact .inr h
  · exact absurd h hcritical
  · exact absurd h hreserved

/-- Only bit 23 takes a reply out of the modes with data. -/
theorem modeField_flip_of_data_mode (h : modeField f = 0b00#2 ∨ modeField f = 0b01#2) (hk : k ≠ 23) :
    modeField (f ^^^ (1#32 <<< k)) = 0b00#2 ∨ modeField (f ^^^ (1#32 <<< k)) = 0b01#2 := by
  by_cases h22 : k = 22
  · subst h22
    rw [modeField_flip_22]
    obtain h | h := h
    · exact .inr (by rw [h]; rfl)
    · exact .inl (by rw [h]; rfl)
  · rwa [modeField_flip_outside f (by omega)]

/-- R62, R63: the polynomial of a parameter record is not `0x00`, so a flip of any bit is seen. -/
theorem crcMatches_flip (P : Params) (hf : crcMatches P.crc f = true) (hk : k < 32) :
    crcMatches P.crc (f ^^^ (1#32 <<< k)) = false := by
  by_cases hlow : k < 24
  · exact crcMatches_flip_payload P.crcPoly_ne_zero hlow hf
  · exact crcMatches_flip_crcField (by omega) hk hf

end

/-! ### The payload fields of a frame whose CRC field is replaced -/

section
variable (f : Frame) (crc : Byte)

@[simp] theorem modeField_replaceCrc : modeField (joinFrame crc (payloadField f)) = modeField f := by
  rw [modeField_eq, payloadField_joinFrame, ← modeField_eq]

@[simp] theorem statusField_replaceCrc : statusField (joinFrame crc (payloadField f)) = statusField f := by
  rw [statusField_eq, payloadField_joinFrame, ← statusField_eq]

@[simp] theorem rwEchoField_replaceCrc : rwEchoField (joinFrame crc (payloadField f)) = rwEchoField f := by
  rw [rwEchoField_eq, payloadField_joinFrame, ← rwEchoField_eq]

@[simp] theorem dataField_replaceCrc : dataField (joinFrame crc (payloadField f)) = dataField f := by
  rw [dataField_eq, payloadField_joinFrame, ← dataField_eq]

@[simp] theorem wideField_replaceCrc : wideField (joinFrame crc (payloadField f)) = wideField f := by
  rw [wideField_eq, payloadField_joinFrame, ← wideField_eq]

@[simp] theorem healthField_replaceCrc : healthField (joinFrame crc (payloadField f)) = healthField f := by
  rw [healthField_eq, payloadField_joinFrame, ← healthField_eq]

end

/-! ### The judgement where the CRC test does not fail -/

section
variable (P : Params) {f : Frame} {verify : Bit}

theorem classifyReply_00_of_verified (h : verify = 0#1 ∨ crcMatches P.crc f = true) (hmode : modeField f = 0b00#2) :
    classifyReply P f verify =
      if statusField f = 0#5 then .ok ((dataField f).setWidth 32)
      else .err (P.statusError (statusField f)).kind (.status (statusField f)) := by
  have hword := rx16Word_fields f hmode
  have hrow := classifyReply_rx16Word P (v := verify) (hword.symm ▸ h)
  rwa [hword] at hrow

theorem classifyReply_01_of_verified (h : verify = 0#1 ∨ crcMatches P.crc f = true) (hmode : modeField f = 0b01#2) :
    classifyReply P f verify = .ok ((wideField f).setWidth 32) := by
  rw [classifyReply_01 P f verify hmode, crcTestFails_of_verified h]
  rfl

theorem crcTest_cases (c : CrcParams) (f : Frame) (verify : Bit) :
    (verify = 0#1 ∨ crcMatches c f = true) ∨ (verify = 1#1 ∧ crcMatches c f = false) := by
  obtain h | h := BitVec.eq_zero_or_eq_one verify
  · exact .inl (.inl h)
  · obtain hmatch | hmatch := Bool.eq_false_or_eq_true (crcMatches c f)
    · exact .inl (.inr hmatch)
    · exact .inr ⟨h, hmatch⟩

theorem verified_of_no_mismatch {c : CrcParams}
    (h : ¬(verify = 1#1 ∧ crcField f ≠ crc8 c (payloadField f))) : verify = 0#1 ∨ crcMatches c f = true := by
  refine (crcTest_cases c f verify).resolve_right fun ⟨hverify, hmatch⟩ => h ⟨hverify, fun hcrc => ?_⟩
  exact Bool.false_ne_true (hmatch.symm.trans ((crcMatches_iff f c).mpr hcrc))

/-- R79: with `verify = 0` the judgement is a function of the payload. -/
theorem classifyReply_replaceCrc (f : Frame) (crc : Byte) :
    classifyReply P (joinFrame crc (payloadField f)) 0#1 = classifyReply P f 0#1 := by
  have hoff {g : Frame} : (0#1 : Bit) = 0#1 ∨ crcMatches P.crc g = true := .inl rfl
  obtain h | h | h | h := mode_cases (modeField f)
  · rw [classifyReply_00_of_verified P hoff h, classifyReply_00_of_verified P hoff (by simpa using h)]
    simp
  · rw [classifyReply_01_of_verified P hoff h, classifyReply_01_of_verified P hoff (by simpa using h)]
    simp
  · rw [classifyReply_10 P f _ h, classifyReply_10 P _ _ (by simpa using h)]
    simp
  · rw [classifyReply_11 P f _ h, classifyReply_11 P _ _ (by simpa using h)]

theorem classifyReply_off_congr {g : Frame} (h : payloadField f = payloadField g) :
    classifyReply P f 0#1 = classifyReply P g 0#1 := by
  have hword : joinFrame (crcField f) (payloadField g) = f := h ▸ joinFrame_fields f
  rw [← classifyReply_replaceCrc P g (crcField f), hword]

/-- R82: with `verify = 1` only a frame whose CRC field is its checksum is `Ok`. -/
theorem crcMatches_of_classifyReply_ok {value : BitVec 32} (h : classifyReply P f 1#1 = .ok value) :
    crcMatches P.crc f = true := by
  rw [← Bool.not_eq_false]
  intro hmatch
  have herr : ∃ kind info, classifyReply P f 1#1 = .err kind info := by
    obtain hmode | hmode | hmode := mode_cases (modeField f)
    · exact ⟨_, _, classifyReply_of_mismatch P (.inl hmode) rfl hmatch⟩
    · exact ⟨_, _, classifyReply_of_mismatch P (.inr hmode) rfl hmatch⟩
    · exact classifyReply_of_error_mode P _ hmode
  obtain ⟨_, _, herr⟩ := herr
  cases herr.symm.trans h

end

end Sys2Proof.Machine
end

section
/-! PROOFS. The decoder and the classifier: the laws of a view (42_decode.md R77), the ports that `DECODE` and
`CLASSIFY` write (R71, R78), and which frames are never data (R76, R79, R80, R81). -/

namespace Sys2Proof.Machine

/-! ### Frames and their views -/

section
variable {P : Params} {f : Frame}

theorem modeField_of_decodeReply {view : ReplyView} (h : decodeReply P f = view) : modeField f = viewKindFlag view := by
  rw [← h, viewKindFlag_decodeReply]

theorem eq_rx16Word_of_decodeReply {status : BitVec 5} {statusKind : Option ErrorKind} {rwEcho : Bit}
    {data : BitVec 16} {crc : Byte} (h : decodeReply P f = .reply16 status statusKind rwEcho data crc) :
    f = rx16Word crc status rwEcho data := by
  have hmode : modeField f = 0b00#2 := modeField_of_decodeReply h
  rw [decodeReply_00 P f hmode] at h
  cases h
  exact (rx16Word_fields f hmode).symm

theorem eq_rx22Word_of_decodeReply {wide : BitVec 22} {crc : Byte} (h : decodeReply P f = .reply22 wide crc) :
    f = rx22Word crc wide := by
  have hmode : modeField f = 0b01#2 := modeField_of_decodeReply h
  rw [decodeReply_01 P f hmode] at h
  cases h
  exact (rx22Word_fields f hmode).symm

end

theorem decodeReply_encodeWriteFrame (P : Params) (a : Addr) (v : BitVec 16)
    (hmode : (P.addrHi a).extractLsb' 5 2 = 0b00#2) :
    decodeReply P (encodeWriteFrame P a v) =
      .reply16 ((P.addrHi a).extractLsb' 0 5) (P.statusKind ((P.addrHi a).extractLsb' 0 5)) P.rwWrite v
        (crcField (encodeWriteFrame P a v)) := by
  obtain ⟨hmode', hstatus, hdata, -⟩ := encodeWriteFrame_receive_fields P a v
  have hecho : rwEchoField (encodeWriteFrame P a v) = P.rwWrite := rwEchoField_txWord ..
  rw [decodeReply_00 P _ (hmode'.trans hmode), hstatus, hdata, hecho]

/-! ### The ports that `DECODE` and `CLASSIFY` write -/

section
variable {s t : State}

theorem exec_decode_kept (h : exec .decode s = .next t) : s.Kept t := by
  cases h
  exact drive_kept s _

theorem exec_classify_out {view : ReplyView} {o : CodecOutcome} (h : exec .classify s = .next t)
    (hview : decodeReply Config.params s.inp.frameIn = view)
    (ho : classifyReply Config.params s.inp.frameIn s.inp.verify = o) :
    t.out = deliver o (writeViewKind view (Config.drawnPorts s.draws)) := by
  cases h
  rw [drive_out, hview, ho]

end

/-- In a mode with data `CLASSIFY` writes no view port but `view_kind`. -/
theorem writeViewKind_of_data_mode (P : Params) {f : Frame} (p : OutPorts)
    (h : modeField f = 0b00#2 ∨ modeField f = 0b01#2) :
    writeViewKind (decodeReply P f) p = { p with viewKind := modeField f } := by
  obtain h | h := h
  · rw [decodeReply_00 P f h, h]
    rfl
  · rw [decodeReply_01 P f h, h]
    rfl

end Sys2Proof.Machine

namespace Sys2Proof

open Machine

/-- Settles O26: a view is made of the fields of its mode, and the words of modes 00 and 01 are made of the same
fields. -/
theorem decodeReadsItsLayoutAndNoMore : Obligations.DecodeReadsItsLayoutAndNoMore := by
  intro P
  refine ⟨fun f crc => ?_, fun f g hf hg hhealth => ?_, fun f g hf hg => ?_,
    fun f _ _ _ _ _ h => eq_rx16Word_of_decodeReply h, fun f _ _ h => eq_rx22Word_of_decodeReply h,
    decodeReply_encodeWriteFrame P⟩
  · obtain h | h | h | h := mode_cases (modeField f)
    · rw [decodeReply_00 P f h, decodeReply_00 P _ ((modeField_replaceCrc f crc).trans h)]
      simp
    · rw [decodeReply_01 P f h, decodeReply_01 P _ ((modeField_replaceCrc f crc).trans h)]
      simp
    · rw [decodeReply_10 P f h, decodeReply_10 P _ ((modeField_replaceCrc f crc).trans h)]
      simp
    · rw [decodeReply_11 P f h, decodeReply_11 P _ ((modeField_replaceCrc f crc).trans h)]
  · rw [decodeReply_10 P f hf, decodeReply_10 P g hg]
    exact congrArg ReplyView.critical hhealth
  · rw [decodeReply_11 P f hf, decodeReply_11 P g hg]

/-- Settles O5: the ports take the view of the mode; the worked examples at REF are evaluated. -/
theorem decodeTakesApartByReplyMode : Obligations.DecodeTakesApartByReplyMode := by
  refine ⟨rfl, fun s => ?_, by decide⟩
  obtain ⟨t, ht⟩ : ∃ t, exec .decode s = .next t := ⟨_, rfl⟩
  exact ⟨t, ht, exec_decode_kept ht, fun h => exec_decode_out ht (decodeReply_00 _ _ h),
    fun h => exec_decode_out ht (decodeReply_01 _ _ h), fun h => exec_decode_out ht (decodeReply_10 _ _ h),
    fun h => exec_decode_out ht (decodeReply_11 _ _ h)⟩

/-- Settles O6: each branch of the chain is one judgement of `CLASSIFY`, delivered over the ports of its view. -/
theorem classifyTestsModeThenCrcThenStatus : Obligations.ClassifyTestsModeThenCrcThenStatus := by
  intro s
  obtain ⟨t, ht⟩ : ∃ t, exec .classify s = .next t := ⟨_, rfl⟩
  refine ⟨t, ht, exec_classify_kept ht, ?_⟩
  split_ifs with hcritical hreserved hmismatch hstatus hmode
  · rw [exec_classify_out ht (decodeReply_10 _ _ hcritical) (classifyReply_10 _ _ _ hcritical)]
    rfl
  · rw [exec_classify_out ht (decodeReply_11 _ _ hreserved) (classifyReply_11 _ _ _ hreserved)]
    rfl
  · obtain ⟨hverify, hcrc⟩ := hmismatch
    have hdata := data_mode_of_not_error_mode hcritical hreserved
    have hmatch := Bool.eq_false_of_not_eq_true (mt (crcMatches_iff _ _).mp hcrc)
    have herr := classifyReply_of_mismatch _ hdata hverify hmatch
    rw [exec_classify_out ht rfl herr, writeViewKind_of_data_mode _ _ hdata]
    rfl
  · obtain ⟨hmode, hnonzero⟩ := hstatus
    have herr := (classifyReply_00_of_verified _ (verified_of_no_mismatch hmismatch) hmode).trans (if_neg hnonzero)
    rw [exec_classify_out ht (decodeReply_00 _ _ hmode) herr]
    rfl
  · have hzero : statusField s.inp.frameIn = 0#5 := by_contra fun h => hstatus ⟨hmode, h⟩
    have hok := (classifyReply_00_of_verified _ (verified_of_no_mismatch hmismatch) hmode).trans (if_pos hzero)
    rw [exec_classify_out ht (decodeReply_00 _ _ hmode) hok]
    rfl
  · have hmode01 := (data_mode_of_not_error_mode hcritical hreserved).resolve_left hmode
    have hok := classifyReply_01_of_verified _ (verified_of_no_mismatch hmismatch) hmode01
    rw [exec_classify_out ht (decodeReply_01 _ _ hmode01) hok]
    rfl

/-- Settles O28: in a mode with data the CRC test comes first, and without it the CRC field is not read. -/
theorem failedVerificationIsNeverData : Obligations.FailedVerificationIsNeverData :=
  fun P f hmode => ⟨classifyReply_of_mismatch P hmode rfl, classifyReply_replaceCrc P f⟩

/-- Settles O29: a 16-bit reply is judged by its CRC test or else by its status, which is not zero. -/
theorem nonzeroStatusIsNeverData : Obligations.NonzeroStatusIsNeverData := by
  intro P f verify hmode hstatus
  have hreported (h : verify = 0#1 ∨ crcMatches P.crc f = true) :
      classifyReply P f verify = .err (P.statusError (statusField f)).kind (.status (statusField f)) :=
    (classifyReply_00_of_verified P h hmode).trans (if_neg hstatus)
  have hmismatch (hverify : verify = 1#1) (h : crcMatches P.crc f = false) :
      classifyReply P f verify = .err .crcError .localMismatch :=
    classifyReply_of_mismatch P (.inl hmode) hverify h
  refine ⟨fun value => ?_, fun h => ⟨_, statusKind_of_ne P hstatus, hreported h, fun hkind => ?_⟩,
    fun hverify h => ?_⟩
  · obtain h | ⟨hverify, h⟩ := crcTest_cases P.crc f verify
    · rw [hreported h]
      exact nofun
    · rw [hmismatch hverify h]
      exact nofun
  · rw [hreported h, show (P.statusError (statusField f)).kind = .crcError from hkind]
    rfl
  · rw [hmismatch hverify h]
    rfl

/-- Settles O30: the mode alone decides, and the health byte is the only field that is read. -/
theorem criticalReplyIsAlwaysHardwareError : Obligations.CriticalReplyIsAlwaysHardwareError := by
  refine ⟨classifyReply_10, fun P undef undef' ignored ignored' health verify verify' => ?_, fun s hmode => ?_⟩
  · rw [classifyReply_rxcritWord, classifyReply_rxcritWord]
  · refine ⟨_, rfl, ?_⟩
    rw [exec_classify_out rfl (decodeReply_10 _ _ hmode) (classifyReply_10 _ _ _ hmode)]
    exact ⟨rfl, rfl, rfl, rfl⟩

/-- Settles O31: the mode alone decides, and no field is read. -/
theorem reservedReplyIsNeverData : Obligations.ReservedReplyIsNeverData := by
  refine ⟨fun P f verify hmode => ⟨decodeReply_11 P f hmode, classifyReply_11 P f verify hmode⟩, fun s hmode => ?_⟩
  refine ⟨_, rfl, ?_⟩
  rw [exec_classify_out rfl (decodeReply_11 _ _ hmode) (classifyReply_11 _ _ _ hmode)]
  exact ⟨rfl, rfl, rfl⟩

end Sys2Proof
end

section
/-! PROOFS. The judgement of a reply with one flipped bit (42_decode.md R82). -/

namespace Sys2Proof.Machine

variable (P : Params) {f : Frame} {k : Nat}

/-! ### With `verify = 1` -/

/-- A flipped bit of a verifying frame is seen, and what is seen is not `Ok`. -/
theorem classifyReply_flip_ne_ok (hf : crcMatches P.crc f = true) (hk : k < 32) (value : BitVec 32) :
    classifyReply P (f ^^^ (1#32 <<< k)) 1#1 ≠ .ok value := by
  intro hok
  exact Bool.false_ne_true ((crcMatches_flip P hf hk).symm.trans (crcMatches_of_classifyReply_ok P hok))

theorem classifyReply_flip_crcError (hmode : modeField f = 0b00#2 ∨ modeField f = 0b01#2)
    (hf : crcMatches P.crc f = true) (hk : k < 32) (hk23 : k ≠ 23) :
    classifyReply P (f ^^^ (1#32 <<< k)) 1#1 = .err .crcError .localMismatch :=
  classifyReply_of_mismatch P (modeField_flip_of_data_mode hmode hk23) rfl (crcMatches_flip P hf hk)

/-! ### With `verify = 0`, a bit of the data or of the status -/

theorem classifyReply_flip_wide (hk : k ≤ 21) (hmode : modeField f = 0b01#2) :
    classifyReply P (f ^^^ (1#32 <<< k)) 0#1 = .ok ((wideField f ^^^ (1#22 <<< k)).setWidth 32) := by
  have hmode' := (modeField_flip_outside f (k := k) (.inl (by omega))).trans hmode
  rw [classifyReply_01_of_verified P (.inl rfl) hmode', wideField_flip_inside f (by omega)]

theorem classifyReply_flip_data (hk : k ≤ 15) (hmode : modeField f = 0b00#2) :
    classifyReply P (f ^^^ (1#32 <<< k)) 0#1 =
      if statusField f = 0#5 then .ok ((dataField f ^^^ (1#16 <<< k)).setWidth 32) else classifyReply P f 0#1 := by
  have hmode' := (modeField_flip_outside f (k := k) (.inl (by omega))).trans hmode
  rw [classifyReply_00_of_verified P (.inl rfl) hmode', classifyReply_00_of_verified P (.inl rfl) hmode,
    statusField_flip_outside f (.inl (by omega)), dataField_flip_inside f (by omega)]
  split <;> rfl

/-- The rw-echo is part of no outcome. -/
theorem classifyReply_flip_rwEcho (hmode : modeField f = 0b00#2) :
    classifyReply P (f ^^^ (1#32 <<< 16)) 0#1 = classifyReply P f 0#1 := by
  have hmode' := (modeField_flip_outside f (k := 16) (.inl (by decide))).trans hmode
  rw [classifyReply_00_of_verified P (.inl rfl) hmode', classifyReply_00_of_verified P (.inl rfl) hmode,
    statusField_flip_outside f (.inl (by decide)), dataField_flip_outside f (by decide)]

theorem classifyReply_flip_status (hlow : 17 ≤ k) (hk : k ≤ 21) (hmode : modeField f = 0b00#2) :
    classifyReply P (f ^^^ (1#32 <<< k)) 0#1 =
      if statusField f = 1#5 <<< (k - 17) then .ok ((dataField f).setWidth 32)
      else .err (P.statusError (statusField f ^^^ (1#5 <<< (k - 17)))).kind
        (.status (statusField f ^^^ (1#5 <<< (k - 17)))) := by
  have hmode' := (modeField_flip_outside f (k := k) (.inl (by omega))).trans hmode
  rw [classifyReply_00_of_verified P (.inl rfl) hmode', statusField_flip_inside f hlow (by omega),
    dataField_flip_outside f (by omega)]
  simp only [BitVec.xor_eq_zero_iff]

/-! ### A bit of the mode -/

theorem classifyReply_flip_22_of_00 (hmode : modeField f = 0b00#2) :
    classifyReply P (f ^^^ (1#32 <<< 22)) 0#1 = .ok ((wideField f).setWidth 32) := by
  have hmode' : modeField (f ^^^ (1#32 <<< 22)) = 0b01#2 := by rw [modeField_flip_22, hmode]; rfl
  rw [classifyReply_01_of_verified P (.inl rfl) hmode', wideField_flip_outside f (by decide)]

theorem classifyReply_flip_22_of_01 (hmode : modeField f = 0b01#2) :
    classifyReply P (f ^^^ (1#32 <<< 22)) 0#1 =
      if statusField f = 0#5 then .ok ((dataField f).setWidth 32)
      else .err (P.statusError (statusField f)).kind (.status (statusField f)) := by
  have hmode' : modeField (f ^^^ (1#32 <<< 22)) = 0b00#2 := by rw [modeField_flip_22, hmode]; rfl
  rw [classifyReply_00_of_verified P (.inl rfl) hmode', statusField_flip_outside f (.inr (by decide)),
    dataField_flip_outside f (by decide)]

theorem classifyReply_flip_23_of_00 (hmode : modeField f = 0b00#2) (verify : Bit) :
    classifyReply P (f ^^^ (1#32 <<< 23)) verify = .err .hardwareError (.health (healthField f)) := by
  have hmode' : modeField (f ^^^ (1#32 <<< 23)) = 0b10#2 := by rw [modeField_flip_23, hmode]; rfl
  rw [classifyReply_10 P _ verify hmode', healthField_flip_outside f (by decide)]

theorem classifyReply_flip_23_of_01 (hmode : modeField f = 0b01#2) (verify : Bit) :
    classifyReply P (f ^^^ (1#32 <<< 23)) verify = .err P.reservedModeKind .none := by
  have hmode' : modeField (f ^^^ (1#32 <<< 23)) = 0b11#2 := by rw [modeField_flip_23, hmode]; rfl
  exact classifyReply_11 P _ verify hmode'

/-- The converse damage: `Ok` needs a CRC field that is the checksum of the damaged payload. -/
theorem crcField_of_classifyReply_flip_ok {value : BitVec 32} (hk : k < 24)
    (h : classifyReply P (f ^^^ (1#32 <<< k)) 1#1 = .ok value) :
    crcField f = crc8 P.crc (payloadField (f ^^^ (1#32 <<< k))) := by
  rw [← crcField_flip_outside f hk]
  exact (crcMatches_iff _ _).mp (crcMatches_of_classifyReply_ok P h)

end Sys2Proof.Machine

namespace Sys2Proof

open Machine

/-- Settles O33: the checksum sees every flip, and without the test each bit acts through the field it stands in. -/
theorem oneFlippedBitIsNeverData : Obligations.OneFlippedBitIsNeverData := by
  refine ⟨fun P f k hmode hf hk => ⟨classifyReply_flip_ne_ok P hf hk, classifyReply_flip_crcError P hmode hf hk,
    fun hk => modeField_flip_outside f (.inl (by omega)), classifyReply_flip_wide P, classifyReply_flip_data P,
    ?_, classifyReply_flip_status P, ?_, ?_, ?_, ?_, ?_,
    fun hk => ⟨modeField_flip_outside f (.inr hk), classifyReply_off_congr P (payloadField_flip_outside f hk)⟩⟩,
    fun P f value _ => crcField_of_classifyReply_flip_ok P (by decide)⟩
  · rintro rfl
    exact classifyReply_flip_rwEcho P
  · rintro rfl
    exact modeField_flip_22 f
  · rintro rfl
    exact classifyReply_flip_22_of_00 P
  · rintro rfl
    exact classifyReply_flip_22_of_01 P
  · rintro rfl
    exact classifyReply_flip_23_of_00 P
  · rintro rfl
    exact classifyReply_flip_23_of_01 P

end Sys2Proof
end

section
/-! PROOFS. The error outcomes and their causes (60_exceptions.md R85), and the codes that the kind ports drive
(R84). -/

namespace Sys2Proof.Machine

/-! ### Error outcomes and their causes -/

/-- R85: the row of the table that stands behind an error of this kind and info. -/
def HasCause (P : Params) (f : Frame) (verify : Bit) (k : ErrorKind) : ErrInfo → Prop
  | .health h => k = .hardwareError ∧ modeField f = 0b10#2 ∧ h = healthField f
  | .none => k = P.reservedModeKind ∧ modeField f = 0b11#2
  | .localMismatch =>
    k = .crcError ∧ (modeField f = 0b00#2 ∨ modeField f = 0b01#2) ∧ verify = 1#1 ∧
      crcField f ≠ crc8 P.crc (payloadField f)
  | .status status =>
    modeField f = 0b00#2 ∧ status = statusField f ∧ P.statusKind status = some k ∧
      (verify = 0#1 ∨ crcField f = crc8 P.crc (payloadField f))

theorem crcMatches_eq_false_iff (c : CrcParams) (f : Frame) :
    crcMatches c f = false ↔ crcField f ≠ crc8 c (payloadField f) := by
  rw [← Bool.not_eq_true, crcMatches_iff]

section
variable (P : Params) {f : Frame} {verify : Bit}

/-- A 16-bit reply whose CRC test does not fail is an error only by its status. -/
theorem classifyReply_00_eq_err_iff {k : ErrorKind} {info : ErrInfo}
    (h : verify = 0#1 ∨ crcMatches P.crc f = true) (hmode : modeField f = 0b00#2) :
    classifyReply P f verify = .err k info ↔
      P.statusKind (statusField f) = some k ∧ info = .status (statusField f) := by
  rw [classifyReply_00_of_verified P h hmode]
  by_cases hstatus : statusField f = 0#5
  · simp [hstatus]
  · simp [hstatus, statusKind_of_ne P hstatus, eq_comm]

theorem hasCause_of_classifyReply {k : ErrorKind} {info : ErrInfo} (h : classifyReply P f verify = .err k info) :
    HasCause P f verify k info := by
  have hmismatch (hmode : modeField f = 0b00#2 ∨ modeField f = 0b01#2) (hverify : verify = 1#1)
      (hmatch : crcMatches P.crc f = false) : HasCause P f verify k info := by
    cases (classifyReply_of_mismatch P hmode hverify hmatch).symm.trans h
    exact ⟨rfl, hmode, hverify, (crcMatches_eq_false_iff ..).mp hmatch⟩
  obtain hmode | hmode | hmode | hmode := mode_cases (modeField f)
  · obtain hverified | ⟨hverify, hmatch⟩ := crcTest_cases P.crc f verify
    · obtain ⟨hkind, rfl⟩ := (classifyReply_00_eq_err_iff P hverified hmode).mp h
      exact ⟨hmode, rfl, hkind, hverified.imp_right (crcMatches_iff ..).mp⟩
    · exact hmismatch (.inl hmode) hverify hmatch
  · obtain hverified | ⟨hverify, hmatch⟩ := crcTest_cases P.crc f verify
    · cases (classifyReply_01_of_verified P hverified hmode).symm.trans h
    · exact hmismatch (.inr hmode) hverify hmatch
  · cases (classifyReply_10 P f verify hmode).symm.trans h
    exact ⟨rfl, hmode, rfl⟩
  · cases (classifyReply_11 P f verify hmode).symm.trans h
    exact ⟨rfl, hmode⟩

theorem classifyReply_of_hasCause {k : ErrorKind} {info : ErrInfo} (h : HasCause P f verify k info) :
    classifyReply P f verify = .err k info := by
  cases info with
  | none =>
    obtain ⟨rfl, hmode⟩ := h
    exact classifyReply_11 P f verify hmode
  | health =>
    obtain ⟨rfl, hmode, rfl⟩ := h
    exact classifyReply_10 P f verify hmode
  | localMismatch =>
    obtain ⟨rfl, hmode, hverify, hcrc⟩ := h
    exact classifyReply_of_mismatch P hmode hverify ((crcMatches_eq_false_iff ..).mpr hcrc)
  | status =>
    obtain ⟨hmode, rfl, hkind, hverified⟩ := h
    exact (classifyReply_00_eq_err_iff P (hverified.imp_right (crcMatches_iff ..).mpr) hmode).mpr ⟨hkind, rfl⟩

theorem classifyReply_eq_err_iff {k : ErrorKind} {info : ErrInfo} :
    classifyReply P f verify = .err k info ↔ HasCause P f verify k info :=
  ⟨hasCause_of_classifyReply P, classifyReply_of_hasCause P⟩

/-- R88: a 22-bit reply has no status, so only its CRC test can make it an error. -/
theorem classifyReply_01_cases (hmode : modeField f = 0b01#2) :
    classifyReply P f verify = .err .crcError .localMismatch ∨ ∃ value, classifyReply P f verify = .ok value := by
  obtain hverified | ⟨hverify, hmatch⟩ := crcTest_cases P.crc f verify
  · exact .inr ⟨_, classifyReply_01_of_verified P hverified hmode⟩
  · exact .inl (classifyReply_of_mismatch P (.inr hmode) hverify hmatch)

end

/-! ### The codes of the kinds -/

theorem kindCode_bounds (k : ErrorKind) : 1 ≤ (kindCode k).toNat ∧ (kindCode k).toNat ≤ 11 := by
  cases k <;> decide

theorem kindCode_ne_zero (k : ErrorKind) : kindCode k ≠ 0#4 := by
  cases k <;> decide

theorem optionKindCode_eq_zero_iff (k : Option ErrorKind) : optionKindCode k = 0#4 ↔ k = none := by
  cases k with
  | none => simp [optionKindCode]
  | some k => simp [optionKindCode, kindCode_ne_zero k]

/-- R74: the causes a status may name. -/
theorem kindCode_statusError (e : StatusError) :
    kindCode e.kind = 3#4 ∨ kindCode e.kind = 8#4 ∨ kindCode e.kind = 9#4 ∨ kindCode e.kind = 10#4 := by
  cases e <;> decide

theorem optionKindCode_statusKind (P : Params) (status : BitVec 5) :
    optionKindCode (P.statusKind status) = 0#4 ∨ optionKindCode (P.statusKind status) = 3#4 ∨
      optionKindCode (P.statusKind status) = 8#4 ∨ optionKindCode (P.statusKind status) = 9#4 ∨
      optionKindCode (P.statusKind status) = 10#4 := by
  by_cases h : status = 0#5
  · exact .inl ((optionKindCode_eq_zero_iff _).mpr ((statusKind_eq_none_iff P status).mpr h))
  · rw [statusKind_of_ne P h]
    exact .inr (kindCode_statusError _)

section
variable {s t : State}

theorem exec_classify_outKind_bounds (h : exec .classify s = .next t) (hok : t.out.outOk = 0#1) :
    1 ≤ t.out.outKind.toNat ∧ t.out.outKind.toNat ≤ 11 := by
  cases ho : classifyReply Config.params s.inp.frameIn s.inp.verify with
  | ok value =>
    obtain ⟨hone, -⟩ := exec_classify_of_ok h ho
    cases hone.symm.trans hok
  | err k info =>
    obtain ⟨-, hkind, -⟩ := exec_classify_of_err h ho
    rw [hkind]
    exact kindCode_bounds k

theorem exec_decode_viewStatusKind (h : exec .decode s = .next t) (hmode : modeField s.inp.frameIn = 0b00#2) :
    t.out.viewStatusKind = optionKindCode (Config.params.statusKind (statusField s.inp.frameIn)) := by
  rw [exec_decode_out h (decodeReply_00 _ _ hmode)]
  rfl

end

end Sys2Proof.Machine

namespace Sys2Proof

open Machine

/-- Settles O32: the info of an error outcome names the row of the table, and the row gives the outcome. -/
theorem errorOutcomesHaveExactlyTheirCauses : Obligations.ErrorOutcomesHaveExactlyTheirCauses :=
  fun P _ _ => ⟨fun _ _ => classifyReply_eq_err_iff P, fun _ => classifyReply_eq_err_iff P,
    fun _ => classifyReply_eq_err_iff P, fun _ _ => classifyReply_eq_err_iff P, classifyReply_01_cases P⟩

/-- Settles O35: `out_kind` carries the code of a kind, and `view_status_kind` that of a status' kind or of none. -/
theorem kindPortsCarryTheListedCodes : Obligations.KindPortsCarryTheListedCodes := by
  refine ⟨rfl, rfl, fun s => ⟨_, rfl, exec_classify_outKind_bounds rfl⟩, fun s hmode => ⟨_, rfl, ?_⟩⟩
  rw [exec_decode_viewStatusKind rfl hmode]
  exact ⟨(optionKindCode_eq_zero_iff _).trans (statusKind_eq_none_iff ..), optionKindCode_statusKind ..⟩

end Sys2Proof
end

section
/-! PROOFS. The three operations on one reply (70_reset_and_hazards.md R107, R110, R111), the order of a program's lines
(R106), and the one exchange at a time (R108). -/

namespace Sys2Proof.Machine

/-! ### The `Ok` outcomes -/

/-- The value of an `Ok` outcome as DECODE's `view_data` carries it. -/
theorem setWidth_widenToViewData (d : BitVec 16) : (widenToViewData d).setWidth 32 = d.setWidth 32 :=
  BitVec.setWidth_setWidth (by decide)

/-- R78: a reply is `Ok` exactly where its layout carries data without an error status and its CRC test does not fail. -/
theorem classifyReply_eq_ok_iff (P : Params) {f : Frame} {verify : Bit} {value : BitVec 32} :
    classifyReply P f verify = .ok value ↔
      (modeField f = 0b00#2 ∧ statusField f = 0#5 ∧ (dataField f).setWidth 32 = value ∨
        modeField f = 0b01#2 ∧ (wideField f).setWidth 32 = value) ∧
      (verify = 0#1 ∨ crcMatches P.crc f = true) := by
  have hverified (hmode : modeField f = 0b00#2 ∨ modeField f = 0b01#2) (h : classifyReply P f verify = .ok value) :
      verify = 0#1 ∨ crcMatches P.crc f = true := by
    refine (crcTest_cases P.crc f verify).resolve_right fun ⟨hverify, hmatch⟩ => ?_
    cases (classifyReply_of_mismatch P hmode hverify hmatch).symm.trans h
  constructor
  · intro h
    obtain hmode | hmode | hmode := mode_cases (modeField f)
    · have hcrc := hverified (.inl hmode) h
      rw [classifyReply_00_of_verified P hcrc hmode] at h
      split_ifs at h with hstatus
      cases h
      exact ⟨.inl ⟨hmode, hstatus, rfl⟩, hcrc⟩
    · have hcrc := hverified (.inr hmode) h
      cases (classifyReply_01_of_verified P hcrc hmode).symm.trans h
      exact ⟨.inr ⟨hmode, rfl⟩, hcrc⟩
    · obtain ⟨k, info, herr⟩ := classifyReply_of_error_mode P verify hmode
      cases herr.symm.trans h
  · rintro ⟨⟨hmode, hstatus, rfl⟩ | ⟨hmode, rfl⟩, hcrc⟩
    · exact (classifyReply_00_of_verified P hcrc hmode).trans (if_pos hstatus)
    · exact classifyReply_01_of_verified P hcrc hmode

/-! ### The ports that the three operations write -/

theorem crcOkFlag_eq_one_iff (c : CrcParams) (f : Frame) : crcOkFlag c f = 1#1 ↔ crcMatches c f = true := by
  cases hmatch : crcMatches c f <;> simp [crcOkFlag, hmatch]

section
variable {s t : State}

theorem exec_verifyCrc_crcOk_iff (h : exec .verifyCrc s = .next t) :
    t.out.crcOk = 1#1 ↔ crcMatches Config.params.crc s.inp.frameIn = true := by
  cases h
  exact crcOkFlag_eq_one_iff ..

theorem exec_decode_viewKind (h : exec .decode s = .next t) : t.out.viewKind = modeField s.inp.frameIn := by
  rw [exec_decode_out h rfl, writeView_viewKind, viewKindFlag_decodeReply]

theorem exec_decode_viewStatus (h : exec .decode s = .next t) (hmode : modeField s.inp.frameIn = 0b00#2) :
    t.out.viewStatus = statusField s.inp.frameIn := by
  rw [exec_decode_out h (decodeReply_00 _ _ hmode)]
  rfl

theorem exec_decode_viewData_00 (h : exec .decode s = .next t) (hmode : modeField s.inp.frameIn = 0b00#2) :
    t.out.viewData = widenToViewData (dataField s.inp.frameIn) := by
  rw [exec_decode_out h (decodeReply_00 _ _ hmode)]
  rfl

theorem exec_decode_viewData_01 (h : exec .decode s = .next t) (hmode : modeField s.inp.frameIn = 0b01#2) :
    t.out.viewData = wideField s.inp.frameIn := by
  rw [exec_decode_out h (decodeReply_01 _ _ hmode)]
  rfl

theorem exec_classify_viewKind (h : exec .classify s = .next t) : t.out.viewKind = modeField s.inp.frameIn := by
  rw [exec_classify_out h rfl rfl, deliver_viewKind, writeViewKind_viewKind, viewKindFlag_decodeReply]

theorem exec_classify_outOk_iff (h : exec .classify s = .next t) :
    t.out.outOk = 1#1 ↔ classifyReply Config.params s.inp.frameIn s.inp.verify = .ok t.out.outValue := by
  constructor
  · intro hone
    cases ho : classifyReply Config.params s.inp.frameIn s.inp.verify with
    | ok value =>
      obtain ⟨-, hvalue⟩ := exec_classify_of_ok h ho
      rw [hvalue]
    | err k info =>
      obtain ⟨hzero, -⟩ := exec_classify_of_err h ho
      cases hzero.symm.trans hone
  · exact fun ho => (exec_classify_of_ok h ho).1

end

/-! ### The program -/

/-- R106: whatever the first line is, a step that answers has taken it, and nothing else, off the program. -/
theorem step_program {s t : State} (h : step s = .next t) : t.program = s.program.tail := by
  obtain ⟨hp, rfl⟩ | ⟨line, rest, i, u, hp, hexec, hrest, -, -, -⟩ | ⟨e, rest, hp, rfl⟩ | ⟨d, rest, hp, rfl⟩ :=
    step_next_cases h
  · rw [redraw_program, hp, List.tail_nil]
  · obtain ⟨-, hkept⟩ := exec_keeps_device_program hexec
    rw [hkept, hrest, hp, List.tail_cons]
  · rw [failExchange_program, hp, List.tail_cons]
  · rw [setDevice_program, hp, List.tail_cons]

/-- With no line left the block waits. -/
theorem step_of_no_line {s : State} (hp : s.program = []) : step s = .next s.redraw := by
  rw [step, State.fetch, hp]

end Sys2Proof.Machine

namespace Sys2Proof

open Machine

/-- Settles O36: `CLASSIFY` is `Ok` where the layout carries data and the CRC test does not fail; `DECODE` shows the
layout, and `VERIFY_CRC` the comparison. -/
theorem classifyAgreesWithDecodeAndVerify : Obligations.ClassifyAgreesWithDecodeAndVerify := by
  intro s
  obtain ⟨t, ht⟩ : ∃ t, exec .classify s = .next t := ⟨_, rfl⟩
  obtain ⟨u, hu⟩ : ∃ u, exec .decode s = .next u := ⟨_, rfl⟩
  obtain ⟨v, hv⟩ : ∃ v, exec .verifyCrc s = .next v := ⟨_, rfl⟩
  refine ⟨t, u, v, ht, hu, hv, (exec_classify_viewKind ht).trans (exec_decode_viewKind hu).symm, ?_, fun hok => ?_⟩
  · rw [exec_decode_viewKind hu, exec_verifyCrc_crcOk_iff hv]
    constructor
    · intro hok
      obtain ⟨hlayout, hcrc⟩ := (classifyReply_eq_ok_iff _).mp ((exec_classify_outOk_iff ht).mp hok)
      refine ⟨hlayout.imp (fun ⟨hmode, hstatus, _⟩ => ⟨hmode, ?_⟩) And.left, hcrc⟩
      exact (exec_decode_viewStatus hu hmode).trans hstatus
    · rintro ⟨⟨hmode, hstatus⟩ | hmode, hcrc⟩
      · rw [exec_decode_viewStatus hu hmode] at hstatus
        exact (exec_classify_of_ok ht ((classifyReply_eq_ok_iff _).mpr ⟨.inl ⟨hmode, hstatus, rfl⟩, hcrc⟩)).1
      · exact (exec_classify_of_ok ht ((classifyReply_eq_ok_iff _).mpr ⟨.inr ⟨hmode, rfl⟩, hcrc⟩)).1
  · obtain ⟨⟨hmode, -, hvalue⟩ | ⟨hmode, hvalue⟩, -⟩ :=
      (classifyReply_eq_ok_iff _).mp ((exec_classify_outOk_iff ht).mp hok)
    · rw [exec_decode_viewData_00 hu hmode, setWidth_widenToViewData, hvalue]
    · rw [exec_decode_viewData_01 hu hmode, hvalue]

/-- Settles O43: each case of a step leaves the rest of the program, and a step without a line only redraws the output
ports. -/
theorem programRunsInOrder : Obligations.ProgramRunsInOrder :=
  ⟨fun _ _ => step_program, fun s hp => ⟨_, step_of_no_line hp, drive_kept s _⟩⟩

/-- Settles O8: both rows start an exchange, which is refused while another is in flight. -/
theorem secondTransmitIsRefused : Obligations.SecondTransmitIsRefused :=
  fun _ _ _ _ _ _ hbusy => ⟨startExchange_of_busy _ hbusy, startExchange_of_busy _ hbusy⟩

end Sys2Proof
end
